-- ==== Sys2Proof/Word.lean ====
section
/-! DEFINITION. The unit of every frame: the byte (11, Common encodings). -/

namespace Sys2Proof

/-- One byte of a frame or of a text. -/
abbrev Byte := BitVec 8

end Sys2Proof
end

