-- ==== Sys2Proof/Config.lean ====
section
/-! DEFINITION. What the part fixes: sizes of its pools and the codes of its frames.
The spec leaves no result of a command open, so there is no free value here. -/

namespace Sys2Proof.Config

/-- Record memory holds 2048 blocks (R79). -/
def poolBlocks : Nat := 2048
/-- A block is 32 bytes (R79, 00 Record memory). -/
def blockBytes : Nat := 32
/-- The query slot pool holds 32 slots (R154). -/
def querySlots : Nat := 32
/-- The crew port has four crew slots (R178). -/
def crewSlots : Nat := 4
/-- At most four refusals wait on a coach port (R152). -/
def refusalsWaiting : Nat := 4
/-- The stop table holds at most 48 stops (R25). -/
def maxStops : Nat := 48
/-- The part code and the revision that IDENTITY returns (R189). -/
def partCode : Nat := 16
def revision : Nat := 1
/-- The priority of stop notices (R105). -/
def stopNoticePriority : Nat := 6
/-- Largest body of an ORDER frame and of a coach link frame (11.2, 11.3). -/
def maxOrderBody : Nat := 512
def maxLinkBody : Nat := 12288
/-- Transfer kinds and marks of the crew port (11.2). -/
def orderTransfer : Byte := 0xA1
def fetchTransfer : Byte := 0xA2
def refetchTransfer : Byte := 0xA3
def answerMark : Byte := 0xA5
def emptyMark : Byte := 0x00
/-- Filler bytes are 0xFF (11.1). -/
def filler : Byte := 0xFF
/-- The sync byte of the coach link (11.3). -/
def sync : Byte := 0xC5
/-- The id of an item field (11.2). -/
def itemField : Nat := 0x80

end Sys2Proof.Config
end

