-- ==== Sys2Proof/Syntax.lean ====
section
/-! DEFINITION. The commands: one constructor for each row of spec/opcode_table.json, in the table's order.
Operands are what the outside gives with the step. An order's parameters are not operands of its grant: they
stand in the crew slot, where ORDER_TRANSFER put them (R177, R178), as a query's stand in its query slot (R152). -/

namespace Sys2Proof

/-- The kind of a power-on start-up, named by the START_MODE strap (R195). -/
inductive StartKind where
  | quick | checked
  deriving DecidableEq, Repr

/-- The side a train line releases: the line unit never hands BOTH (R171). -/
inductive LineSide where
  | left | right
  deriving DecidableEq, Repr

/-- The portions that have a coupler function (R172). -/
inductive CouplerPortion where
  | b | c
  deriving DecidableEq, Repr

/-- A level of a line (R164). -/
inductive LineLevel where
  | high | low
  deriving DecidableEq, Repr

/-- One parameter field of a frame body: a field id and the value's bytes (11.1, Parameter fields). -/
structure RawField where
  id : Nat
  value : List Byte
  deriving DecidableEq, Repr

/-- The rows of spec/opcode_table.json. -/
inductive Instr where
  /-- POWER_ON (R195): the level of the START_MODE strap. -/
  | powerOn (strap : StartKind)
  | resetNAsserted
  | resetNReleased
  /-- START_UP_END (R196): the blocks that failed the CHECKED test (R80). -/
  | startUpEnd (failed : List Nat)
  /-- ORDER_TRANSFER (R177): every byte the host clocks after the transfer kind byte. -/
  | orderTransfer (bytes : List Byte)
  /-- FETCH (R180), REFETCH (R181): how many bytes the host clocks after the transfer kind byte. -/
  | fetch (clocked : Nat)
  | refetch (clocked : Nat)
  /-- UNKNOWN_TRANSFER (R176): the first byte, and how many bytes the host clocks after it. -/
  | unknownTransfer (first : Byte) (clocked : Nat)
  | unknownOrder
  | setCoach
  | removeCoach
  | attach
  | detach
  | setLevel
  | putStop
  | removeStop
  | cancelStop
  | reinstateStop
  | setDelay
  | start
  | approach
  | arrive
  | releaseDoors
  | depart
  | book
  | confirm
  | cancel
  | cancelCode
  | move
  | replace
  | putText
  | dropText
  | issue
  | amend
  | withdraw
  | set
  | acknowledge
  | enterStabled
  | leaveStabled
  | journeyClear
  | seat
  | seatNext
  | seatCursor
  | stopRel
  | stopAt
  | routeWindow
  | notices
  | formation
  | self
  | continue
  | reservation
  | booking
  | coach
  | port
  | text
  | notice
  | pool
  | lines
  | settings
  | identity
  | carrierQualified (port : Fin 16)
  | linkLost (port : Fin 16)
  /-- GREET (R146): label, answer item maximum and protocol revision, as the frame gives them. -/
  | greet (port : Fin 16) (label : List Byte) (maximum revision : Nat)
  /-- QUERY (R152): the fields of the frame body. -/
  | query (port : Fin 16) (fields : List RawField)
  | noticeReceipt (port : Fin 16) (entry edition : Nat)
  | levelReceipt (port : Fin 16)
  | releaseReceipt (port : Fin 16)
  | wake (port : Fin 16)
  /-- FRAME_ERROR (R162, R200): the bytes received, and the breaks of the carrier among them: a break n stands behind the
  first n of them. -/
  | frameError (port : Fin 16) (bytes : List Byte) (breaks : List Nat)
  | welcome (port : Fin 16)
  | level (port : Fin 16)
  | release (port : Fin 16)
  | answer (port : Fin 16)
  | pull (port : Fin 16)
  | push (port : Fin 16)
  | refresh (port : Fin 16)
  | tick
  /-- PROVISIONAL_HOLD_EXPIRY (R64): the coach whose holds run out at this tick. -/
  | provisionalHoldExpiry (coach : Fin 16)
  | lifetimeExpiry (entry : Fin 24)
  | receiptDeadlineExpiry (entry : Fin 24)
  /-- PUSH_TIMEOUT (R109): the coach whose in-flight item times out. -/
  | pushTimeout (coach : Fin 16)
  | detachDeadlineExpiry
  | stablingDeadlineExpiry
  | lineInputChange (line : Fin 8) (level : LineLevel)
  | filteredChange (line : Fin 8)
  | lineArrive
  | lineDepart
  | lineApproach
  | lineReleaseDoors (side : LineSide)
  | couplerEvent (portion : CouplerPortion) (active : Bool)
  | doorEvent
  | stablingRequest
  | incomingCarrierChange (port : Fin 16) (present : Bool)
  | unknownLocator
  deriving DecidableEq, Repr

end Sys2Proof
end

