-- ==== Sys2Proof/WellFormed.lean ====
section
/-! DEFINITION. The checks on a command's operands that its types do not make. A command that fails one is no step
of its row: a frame of the wrong shape is the row FRAME_ERROR's (R162, R200), and so on. exec is total on every
command all the same and says what it does with each. -/

namespace Sys2Proof

/-- Strictly rising numbers, so that each block is named once. -/
def strictlyRising : List Nat → Bool
  | a :: b :: rest => a < b && strictlyRising (b :: rest)
  | _ => true

/-- The tag field of a QUERY: field 1, one byte, 0..7 (R200). A QUERY without one, or with two, has none that the port can
read (DEDUCED, log 33, safe). -/
def queryTag (fields : List RawField) : Option Nat :=
  match fields.filter (fun f => f.id == 1) with
  | [f] =>
    match f.value with
    | [b] => if b.toNat ≤ 7 then some b.toNat else none
    | _ => none
  | _ => none

/-- A field that its own length byte or bytes can carry (11.1). -/
def fieldFits (f : RawField) : Bool :=
  f.id < 256 && f.value.length < (if f.id = Config.itemField then 65536 else 256)

/-- How many bytes fields take in a body (11.1). -/
def bodyLength (fields : List RawField) : Nat :=
  (fields.map (fun f => (if f.id = Config.itemField then 3 else 2) + f.value.length)).sum

/-- The shape of a QUERY as the port judges it: a tag, and fields that a body of the largest length carries (R200). -/
def queryShape (fields : List RawField) : Bool :=
  (queryTag fields).isSome && fields.all fieldFits && bodyLength fields ≤ Config.maxLinkBody

/-- The shape of a GREET (R146). That a character of the label is one byte is the model's (DESIGN CHOICE, log 38, unsafe), and
so is that the protocol revision is one byte, 1..255 (DESIGN CHOICE, log 32, unsafe). -/
def greetShape (label : List Byte) (maximum revision : Nat) : Bool :=
  1 ≤ label.length && label.length ≤ 3 && 1 ≤ maximum && maximum ≤ 32 && 1 ≤ revision && revision ≤ 255

/-- The fields of a notice receipt that the port reads (R200). -/
def receiptShape (entry edition : Nat) : Bool :=
  1 ≤ entry && entry ≤ 24 && 1 ≤ edition && edition ≤ 65535

/-- Whether a command's operands are those of a step of its row. -/
def Instr.wellFormed : Instr → Bool
  | .startUpEnd failed => failed.all (· < Config.poolBlocks) && strictlyRising failed
  | .unknownTransfer first _ =>
    first != Config.orderTransfer && first != Config.fetchTransfer && first != Config.refetchTransfer
  | .greet _ label maximum revision => greetShape label maximum revision
  | .query _ fields => queryShape fields
  | .noticeReceipt _ entry edition => receiptShape entry edition
  | .frameError _ bytes breaks => breaks.all (· ≤ bytes.length)
  | _ => true

end Sys2Proof
end

