-- ==== Sys2Proof/Machine/State.lean ====
section
/-! DEFINITION. Everything the TW16 holds, block by block as the block diagram of 00 lays it out, and its value after
reset. Plain data throughout. -/

namespace Sys2Proof.Machine

/-! ## Formation table (R1, R9) -/

/-- The parts into which the train may divide. -/
inductive Portion where
  | a | b | c
  deriving DecidableEq, Repr

/-- The display state of a coach (R1). -/
inductive Level where
  | full | dim | dark
  deriving DecidableEq, Repr

/-- The link state of a defined coach (R2). -/
inductive LinkState where
  | expected | online | lost
  deriving DecidableEq, Repr

/-- A defined coach entry (R1); a VACANT entry holds only its number, which is its place in the table. -/
structure Coach where
  label : List Byte
  port : Option (Fin 16)
  portion : Portion
  position : Nat
  seatCount : Nat
  hidden : Bool
  wakeAllowed : Bool
  level : Level
  savedLevel : Option Level
  link : LinkState
  deriving DecidableEq, Repr

inductive PortionState where
  | vacant | attached | detaching
  deriving DecidableEq, Repr

inductive Phase where
  | noRoute | atPlatform | doorsReleased | enRoute | approaching | terminated
  deriving DecidableEq, Repr

/-- A portion record with the progress that the route unit keeps in it (R9, R29). -/
structure PortionRecord where
  state : PortionState
  phase : Option Phase
  current : Option Nat
  lastArrived : Option Nat
  deadline : Option Nat
  deriving DecidableEq, Repr

structure Portions where
  a : PortionRecord
  b : PortionRecord
  c : PortionRecord
  deriving DecidableEq, Repr

/-- The formation table. Entry i of `coaches` is coach number i + 1. -/
structure Formation where
  coaches : Vector (Option Coach) 16
  portions : Portions
  gen : Nat
  deriving DecidableEq, Repr

/-! ## Route unit (R25, R26) -/

/-- A set of portions. -/
structure PortionSet where
  a : Bool
  b : Bool
  c : Bool
  deriving DecidableEq, Repr

/-- A door side of a stop, or a released side (R26, R47). -/
inductive Side where
  | left | right | both
  deriving DecidableEq, Repr

inductive StopKind where
  | call | split
  deriving DecidableEq, Repr

structure Stop where
  id : Nat
  name : Nat
  platform : Option Nat
  side : Option Side
  arrival : Option Nat
  departure : Option Nat
  delay : Nat
  portions : PortionSet
  kind : StopKind
  cancelled : Bool
  deriving DecidableEq, Repr

/-- The stop table in table order, and the route generation. -/
structure Route where
  stops : List Stop
  gen : Nat
  deriving DecidableEq, Repr

/-! ## Reservation store (R51) -/

inductive Hold where
  | confirmed
  | provisional (ticks : Nat)
  deriving DecidableEq, Repr

inductive ResStatus where
  | upcoming | active
  deriving DecidableEq, Repr

/-- A reservation (R51), with the number of the block of record memory that it holds (R79, R81). -/
structure Reservation where
  handle : Nat
  coach : Fin 16
  seat : Nat
  board : Nat
  alight : Nat
  code : Option (BitVec 32)
  label : Option Nat
  hold : Hold
  status : ResStatus
  block : Nat
  deriving DecidableEq, Repr

structure Store where
  reservations : List Reservation
  handleCounter : Nat
  seatGens : Vector Nat 16
  deriving DecidableEq, Repr

/-! ## Record memory and text store (R79, R85) -/

/-- A present or retiring text slot; its length is the number of its bytes. `chain` is the numbers of the blocks it
holds, in the slot's order (R82, R85). -/
structure TextSlot where
  id : Nat
  bytes : List Byte
  refs : Nat
  retiring : Bool
  chain : List Nat
  deriving DecidableEq, Repr

/-- Record memory: its counts, and the numbers of the excluded blocks, whose number is the excluded count (R79, R80).
Which record holds a block stands in the record (`Reservation.block`, `TextSlot.chain`), as R79's last paragraph has it:
the use of every block 0..2047 is `blockUse`. -/
structure RecordMemory where
  free : Nat
  reserved : Nat
  text : Nat
  excludedBlocks : List Nat
  texts : List TextSlot
  deriving DecidableEq, Repr

/-! ## Notice unit (R94, R107, R109) -/

inductive NoticeKind where
  | delay | service | divide | custom | nextStop | approaching | atStop
  deriving DecidableEq, Repr

/-- A set of coach numbers; place i is coach number i + 1. -/
abbrev CoachSet := Vector Bool 16

inductive Target where
  | portions (set : PortionSet)
  | coaches (set : CoachSet)
  deriving DecidableEq, Repr

/-- The state of a live entry; the receipt deadline is present while DELIVERING (R94). -/
inductive NoticeState where
  | delivering (deadline : Nat)
  | delivered
  | partly
  deriving DecidableEq, Repr

/-- The fields of a live entry (R94); a lifetime that is none is "until withdrawn". -/
structure LiveNotice where
  kind : NoticeKind
  priority : Nat
  target : Target
  text : Nat
  subject : Option Nat
  lifetime : Option Nat
  edition : Nat
  start : BitVec 32
  state : NoticeState
  delivery : CoachSet
  receipted : CoachSet
  holders : CoachSet
  deriving DecidableEq, Repr

/-- A notice entry: its edition counter, and its fields while it is live (R94, R95). -/
structure NoticeEntry where
  counter : Nat
  live : Option LiveNotice
  deriving DecidableEq, Repr

/-- An item of a pending list (R107). -/
inductive PendingItem where
  | push (entry : Fin 24) (edition : Nat)
  | pull (entry : Fin 24)
  deriving DecidableEq, Repr

/-- An item of an in-flight list (R109). -/
structure Flight where
  entry : Fin 24
  edition : Nat
  ticks : Nat
  deriving DecidableEq, Repr

/-- The two lists the notice unit keeps for a coach number: pending in order of placing, in flight in order of
sending. -/
structure CoachLists where
  pending : List PendingItem
  inFlight : List Flight
  deriving DecidableEq, Repr

/-- The notice unit. Entry i of `entries` is notice entry i + 1. -/
structure NoticeUnit where
  entries : Vector NoticeEntry 24
  lists : Vector CoachLists 16
  gen : Nat
  deriving DecidableEq, Repr

/-! ## Access arbiter (R123) -/

structure Arbiter where
  pointer : Fin 16
  burst : Nat
  deriving DecidableEq, Repr

/-! ## Answers and continuations (00 Status codes, R140) -/

/-- The status codes in the order of the introduction's table. -/
inductive StatusCode where
  | ok | more | busy | malformed | unknown | range | conflict | notServed | past | full | noSpace | inUse | retiring
  | phase | detaching | mode | dark | stale | unbound
  deriving DecidableEq, Repr

/-- An item of an answer: its fields (11.2). -/
abbrev Item := List RawField

/-- What an owner answers: status, generation (0 where none applies), result fields and items. -/
structure Reply where
  status : StatusCode
  generation : Nat
  results : List RawField
  items : List Item
  deriving DecidableEq, Repr

/-- A walk that a continuation may continue, with its parameters (R140). -/
inductive Walk where
  | seat (coach : Fin 16) (seat : Nat)
  | routeWindow (portion : Portion) (base : Int) (count : Nat)
  | notices
  | formation
  | booking (code : BitVec 32)
  | lines
  | settings
  deriving DecidableEq, Repr

/-- A continuation record (R140): generations is empty for LINES and SETTINGS, sixteen long for BOOKING. -/
structure Continuation where
  walk : Walk
  selection : BitVec 32
  key : Nat
  generations : List Nat
  deriving DecidableEq, Repr

/-! ## Coach ports (R143) -/

inductive PortState where
  | down | greeting | bound | unbound | mismatched
  deriving DecidableEq, Repr

/-- A WAITING query: its tag and the fields of its frame. -/
structure Query where
  tag : Nat
  fields : List RawField
  deriving DecidableEq, Repr

/-- An answer made and not yet sent: of an ANSWERED query, or a refusal made at arrival (R152, R153). -/
structure WaitingAnswer where
  tag : Nat
  reply : Reply
  refusal : Bool
  deriving DecidableEq, Repr

structure RefreshFlags where
  seats : Bool
  route : Bool
  formation : Bool
  deriving DecidableEq, Repr

/-- The messages the TW16 sends on a coach link (11.3). -/
inductive LinkKind where
  | welcome | answer | push | pull | level | release | refresh
  deriving DecidableEq, Repr

/-- A message handed to a transmitter: its kind, parameter fields and items. -/
structure LinkMessage where
  kind : LinkKind
  fields : List RawField
  items : List Item
  deriving DecidableEq, Repr

/-- A coach port record (R143). `waiting` holds the WAITING queries in order of arrival, `outbox` the answers in the
order in which they were made. `wait` is a qualification wait while DOWN and an absence otherwise, with the loss
grace in ms that it began with (R144). `sent` is the last message handed to the transmitter. -/
structure Port where
  state : PortState
  bound : Option (Fin 16)
  greeted : Option (List Byte)
  maximum : Nat
  waiting : List Query
  outbox : List WaitingAnswer
  cursor : Nat
  continuation : Option Continuation
  refresh : RefreshFlags
  welcome : Bool
  level : Bool
  release : Bool
  levelAwaited : Bool
  releaseAwaited : Bool
  frameErrors : Nat
  carrier : Bool
  wait : Option Nat
  sent : Option LinkMessage
  deriving DecidableEq, Repr

/-! ## Crew port (R178, R180, R184) -/

/-- An order held in a crew slot: tag, order kind (R179's numbering) and parameter fields. -/
structure Order where
  tag : Nat
  kind : Nat
  fields : List RawField
  deriving DecidableEq, Repr

/-- The states of a crew slot that is not FREE (R178). -/
inductive SlotState where
  | taken
  | executing
  | answerReady (reply : Reply)
  deriving DecidableEq, Repr

structure CrewSlot where
  order : Order
  state : SlotState
  deriving DecidableEq, Repr

/-- An answer as the host fetches it (R179). -/
structure CrewAnswer where
  tag : Nat
  kind : Nat
  reply : Reply
  deriving DecidableEq, Repr

/-- The pairs of a condition kind and a subject, in the order of R184's table. -/
inductive Condition where
  | started
  | arrived (p : Portion)
  | departed (p : Portion)
  | detachDone (p : Portion)
  | noticeDelivered (e : Fin 24)
  | noticePartial (e : Fin 24)
  | provisionalLapsed (c : Fin 16)
  | coachJoined (c : Fin 16)
  | stabledReached
  | pattern
  | coachLost (c : Fin 16)
  | greetMismatch (p : Fin 16)
  | detachForced (p : Portion)
  | unexpectedUncouple (p : Portion)
  | doorSideMismatch (p : Portion)
  | poolLow
  deriving DecidableEq, Repr

/-- The crew port: the slots that are not FREE in order of intake, the last fetched answer, the crew port's
continuation, the attention set, and the bytes driven on CREW_DOUT in the last transfer. -/
structure Crew where
  slots : List CrewSlot
  lastFetched : Option CrewAnswer
  continuation : Option Continuation
  attention : List Condition
  out : List Byte
  deriving DecidableEq, Repr

/-! ## Line unit (R164) -/

inductive LineFunction where
  | unused | standstill | doorsLeft | doorsRight | beacon | couplerB | couplerC | crewKey
  deriving DecidableEq, Repr

/-- A line record; `wait` is the filter wait in progress with its check time in ms (R166). -/
structure Line where
  function : LineFunction
  activeLevel : LineLevel
  filtered : LineLevel
  inPattern : Bool
  input : LineLevel
  wait : Option Nat
  deriving DecidableEq, Repr

/-- What the line unit hands to an owner (R169, R175). -/
inductive HandOver where
  | arrive
  | depart
  | approach
  | releaseDoors (side : LineSide)
  | coupler (portion : CouplerPortion) (active : Bool)
  | door
  | stabling
  deriving DecidableEq, Repr

/-- The line unit: line records, check time of each group as its place in the list of check times (R166), the
functions held active (R168), whether the pattern is complete (R174), and what has been handed over and not yet
taken. -/
structure LineUnit where
  lines : Vector Line 8
  checkTimes : Vector (Fin 8) 2
  active : List LineFunction
  complete : Bool
  handOvers : List HandOver
  deriving DecidableEq, Repr

/-! ## Time and mode control (R190, R191, R195) and settings (R183) -/

inductive Mode where
  | service | stabling | stabled
  deriving DecidableEq, Repr

/-- A start-up under way: after power-on, or a warm restart. -/
inductive StartUp where
  | powerOn | warm
  deriving DecidableEq, Repr

structure TimeControl where
  tickCount : BitVec 32
  mode : Mode
  stablingDeadline : Option Nat
  startKind : StartKind
  startUp : Option StartUp
  resetHeld : Bool
  deriving DecidableEq, Repr

inductive DarkPolicy where
  | refuseAll | seatsInDark
  deriving DecidableEq, Repr

/-- The settings of R183's table but for the line settings, which stand in the line unit. -/
structure Settings where
  reservationFloor : Nat
  lowWater : Nat
  receiptDeadline : Nat
  pushLimit : Nat
  queryQuota : Vector Nat 16
  crewBurst : Nat
  lossGrace : Nat
  itemCap : Nat
  autoNextStop : Bool
  autoApproaching : Bool
  autoAtStop : Bool
  arrivalNeedsApproach : Bool
  detachDeadline : Nat
  stablingDeadline : Nat
  provisionalHold : Nat
  darkPolicy : DarkPolicy
  doorsEndStabling : Bool
  masked : Vector Bool 16
  twoLines : Bool
  deriving DecidableEq, Repr

/-- The whole part, and the queue of commands that wait. -/
structure State where
  formation : Formation
  route : Route
  store : Store
  memory : RecordMemory
  notice : NoticeUnit
  arbiter : Arbiter
  ports : Vector Port 16
  crew : Crew
  lines : LineUnit
  time : TimeControl
  settings : Settings
  pending : List Instr
  deriving DecidableEq, Repr

/-- No command stops the part: a refused order is an answer, a fault it finds is an attention condition (00). -/
inductive Fault
  deriving DecidableEq, Repr

/-- Refusals of the model. -/
inductive Refusal where
  /-- exec's arm of a command that has no meaning yet; safe, the model stops. -/
  | notModelled (mnemonic : String)
  deriving DecidableEq, Repr

/-! ## The power-on values -/

/-- A VACANT portion has no progress and no deadline (R9). -/
def PortionRecord.vacant : PortionRecord := ⟨.vacant, none, none, none, none⟩

def Formation.powerOn : Formation :=
  ⟨Vector.replicate 16 none, ⟨.vacant, .vacant, .vacant⟩, 1⟩

def Route.powerOn : Route := ⟨[], 1⟩

def Store.powerOn : Store := ⟨[], 1, Vector.replicate 16 1⟩

/-- Record memory with no block excluded yet (R79, R80). -/
def RecordMemory.powerOn : RecordMemory := ⟨2048, 0, 0, [], []⟩

def CoachLists.empty : CoachLists := ⟨[], []⟩

def NoticeUnit.powerOn : NoticeUnit :=
  ⟨Vector.replicate 24 ⟨1, none⟩, Vector.replicate 16 .empty, 1⟩

def Arbiter.powerOn : Arbiter := ⟨15, 0⟩

def RefreshFlags.clear : RefreshFlags := ⟨false, false, false⟩

/-- A port at power-on and after a warm restart (R143), with the level of its pin. -/
def Port.powerOn (carrier : Bool) : Port :=
  { state := .down, bound := none, greeted := none, maximum := 1, waiting := [], outbox := [], cursor := 1,
    continuation := none, refresh := .clear, welcome := false, level := false, release := false,
    levelAwaited := false, releaseAwaited := false, frameErrors := 0, carrier := carrier, wait := none, sent := none }

def Crew.powerOn : Crew := ⟨[], none, none, [], []⟩

/-- A line at power-on (R164), with the level of its pin; the filtered level has no value before the end of start-up
(R164) and stands at LOW until then (DESIGN CHOICE, log 3, unsafe). -/
def Line.powerOn (input : LineLevel) : Line := ⟨.unused, .high, .low, false, input, none⟩

/-- The defaults of R183's table. -/
def Settings.defaults : Settings :=
  { reservationFloor := 1024, lowWater := 64, receiptDeadline := 50, pushLimit := 2,
    queryQuota := Vector.replicate 16 2, crewBurst := 2, lossGrace := 200, itemCap := 16,
    autoNextStop := true, autoApproaching := true, autoAtStop := true, arrivalNeedsApproach := true,
    detachDeadline := 300, stablingDeadline := 100, provisionalHold := 3000, darkPolicy := .refuseAll,
    doorsEndStabling := false, masked := Vector.replicate 16 false, twoLines := false }

/-- The part right after reset: every block in its power-on state (R195), a power-on start-up under way. The pins
(strap QUICK, carriers absent, lines LOW, RESET_N released) are DESIGN CHOICE (log 3, unsafe). -/
def State.reset : State :=
  { formation := .powerOn, route := .powerOn, store := .powerOn, memory := .powerOn, notice := .powerOn,
    arbiter := .powerOn, ports := Vector.replicate 16 (.powerOn false), crew := .powerOn,
    lines := ⟨Vector.replicate 8 (.powerOn .low), Vector.replicate 2 3, [], false, []⟩,
    time := ⟨0, .service, none, .quick, some .powerOn, false⟩,
    settings := .defaults, pending := [] }

end Sys2Proof.Machine
end

