-- ==== Sys2Proof/Machine/Tables.lean ====
section
/-! DEFINITION. Tables of a fixed number of records: how one is built, changed in one place, and gone through. -/

namespace Sys2Proof.Machine

/-- The table whose place i holds `f i`. -/
def tabulate {α : Type} {n : Nat} (f : Fin n → α) : Vector α n :=
  ⟨⟨(List.finRange n).map f⟩, by simp⟩

/-- Change one place of a table. -/
def update {α : Type} {n : Nat} (v : Vector α n) (i : Fin n) (f : α → α) : Vector α n :=
  v.set i (f v[i])

/-- Put an element where it belongs in a list in some order. -/
def insertBy {α : Type} (before : α → α → Bool) (x : α) : List α → List α
  | [] => [x]
  | y :: ys => if before y x then y :: insertBy before x ys else x :: y :: ys

/-- A list put in an order. -/
def sortBy {α : Type} (before : α → α → Bool) (l : List α) : List α := l.foldr (insertBy before) []

/-- The sixteen coaches, or ports, in increasing number. -/
def all16 : List (Fin 16) := List.finRange 16

/-- The twenty-four notice entries in increasing number. -/
def all24 : List (Fin 24) := List.finRange 24

/-- The eight lines. -/
def all8 : List (Fin 8) := List.finRange 8

def CoachSet.none : CoachSet := Vector.replicate 16 false
def CoachSet.isEmpty (a : CoachSet) : Bool := all16.all (fun c => !a[c])
def CoachSet.subset (a b : CoachSet) : Bool := all16.all (fun c => !a[c] || b[c])
def CoachSet.insert (a : CoachSet) (c : Fin 16) : CoachSet := update a c (fun _ => true)
def CoachSet.erase (a : CoachSet) (c : Fin 16) : CoachSet := update a c (fun _ => false)
/-- `a` without the members of `b`. -/
def CoachSet.without (a b : CoachSet) : CoachSet := tabulate (fun c => a[c] && !b[c])
/-- The members in increasing number. -/
def CoachSet.members (a : CoachSet) : List (Fin 16) := all16.filter (fun c => a[c])

def Portion.all : List Portion := [.a, .b, .c]

def PortionSet.mem (s : PortionSet) : Portion → Bool
  | .a => s.a
  | .b => s.b
  | .c => s.c

def PortionSet.isEmpty (s : PortionSet) : Bool := !s.a && !s.b && !s.c

def PortionSet.without (s : PortionSet) : Portion → PortionSet
  | .a => { s with a := false }
  | .b => { s with b := false }
  | .c => { s with c := false }

def PortionSet.single : Portion → PortionSet
  | .a => ⟨true, false, false⟩
  | .b => ⟨false, true, false⟩
  | .c => ⟨false, false, true⟩

def Portions.get (t : Portions) : Portion → PortionRecord
  | .a => t.a
  | .b => t.b
  | .c => t.c

def Portions.update (t : Portions) (p : Portion) (f : PortionRecord → PortionRecord) : Portions :=
  match p with
  | .a => { t with a := f t.a }
  | .b => { t with b := f t.b }
  | .c => { t with c := f t.c }

/-- The stop notice entry of a portion: 22, 23 or 24 (R9). -/
def Portion.stopEntry : Portion → Fin 24
  | .a => 21
  | .b => 22
  | .c => 23

/-- Numbers as the orders write them, to places in the tables; none out of range. -/
def coachNo (n : Nat) : Option (Fin 16) := if h : 1 ≤ n ∧ n ≤ 16 then some ⟨n - 1, by omega⟩ else Option.none
def portNo (n : Nat) : Option (Fin 16) := if h : n < 16 then some ⟨n, h⟩ else Option.none
def entryNo (n : Nat) : Option (Fin 24) := if h : 1 ≤ n ∧ n ≤ 24 then some ⟨n - 1, by omega⟩ else Option.none
def lineNo (n : Nat) : Option (Fin 8) := if h : n < 8 then some ⟨n, h⟩ else Option.none

/-- Whether a number lies in a range. -/
def within (lo hi n : Nat) : Bool := lo ≤ n && n ≤ hi

/-! ## Reading the tables of the state -/

def State.coach (s : State) (c : Fin 16) : Option Coach := s.formation.coaches[c]
def State.portion (s : State) (p : Portion) : PortionRecord := s.formation.portions.get p
def State.port (s : State) (p : Fin 16) : Port := s.ports[p]
def State.entry (s : State) (e : Fin 24) : NoticeEntry := s.notice.entries[e]
def State.listsOf (s : State) (c : Fin 16) : CoachLists := s.notice.lists[c]
def State.seatGen (s : State) (c : Fin 16) : Nat := s.store.seatGens[c]

/-- The portion of a coach's entry, none while the entry is VACANT. -/
def State.portionOf (s : State) (c : Fin 16) : Option Portion := (s.coach c).map (·.portion)

/-- The coaches of a portion: the defined entries whose portion field names it (R1). -/
def State.coachesOf (s : State) (p : Portion) : List (Fin 16) :=
  all16.filter (fun c => s.portionOf c == some p)

/-- The port BOUND to a coach, if any. -/
def State.boundPort (s : State) (c : Fin 16) : Option (Fin 16) :=
  all16.find? (fun p => (s.port p).state == .bound && (s.port p).bound == some c)

/-- The coach whose defined entry names a port, if any; at most one does (R148). -/
def State.namedBy (s : State) (p : Fin 16) : Option (Fin 16) :=
  all16.find? (fun c => (s.coach c).any (fun k => k.port == some p))

/-- The DETACHING portion, if any; there is at most one (R12). -/
def State.detachingPortion (s : State) : Option Portion :=
  Portion.all.find? (fun p => (s.portion p).state == .detaching)

/-! ## Writing them -/

def State.setCoach (s : State) (c : Fin 16) (k : Option Coach) : State :=
  { s with formation.coaches := update s.formation.coaches c (fun _ => k) }
/-- Change a defined entry; a VACANT one is left. -/
def State.updCoach (s : State) (c : Fin 16) (f : Coach → Coach) : State :=
  { s with formation.coaches := update s.formation.coaches c (Option.map f) }
def State.updPortion (s : State) (p : Portion) (f : PortionRecord → PortionRecord) : State :=
  { s with formation.portions := s.formation.portions.update p f }
def State.updPort (s : State) (p : Fin 16) (f : Port → Port) : State :=
  { s with ports := update s.ports p f }
def State.updEntry (s : State) (e : Fin 24) (f : NoticeEntry → NoticeEntry) : State :=
  { s with notice.entries := update s.notice.entries e f }
def State.updLists (s : State) (c : Fin 16) (f : CoachLists → CoachLists) : State :=
  { s with notice.lists := update s.notice.lists c f }
/-- Change a live entry; a FREE one is left. -/
def NoticeEntry.mapLive (f : LiveNotice → LiveNotice) (n : NoticeEntry) : NoticeEntry :=
  { n with live := n.live.map f }

/-- Start-up has ended and RESET_N is not held (R195, R197). -/
def State.running (s : State) : Bool := s.time.startUp.isNone && !s.time.resetHeld

/-- What a step answers. -/
abbrev Outcome := Host.Outcome State Fault Refusal

end Sys2Proof.Machine
end

