-- ==== Sys2Proof/Machine/Codes.lean ====
section
/-! DEFINITION. The numbers that frames carry for names (11.1). An enumerated value is numbered from 0 in the order
in which its values are first listed; a value of two is so numbered too, its affirmative first (DEDUCED, log 8). -/

namespace Sys2Proof.Machine

/-- A two-valued field: set, on, yes, masked, active, present 0; the other 1 (DEDUCED from 11.1, log 8). -/
def flagCode (b : Bool) : Nat := if b then 0 else 1
def flagOf (n : Nat) : Option Bool := match n with | 0 => some true | 1 => some false | _ => none

def Portion.code : Portion → Nat
  | .a => 0
  | .b => 1
  | .c => 2
def Portion.ofCode : Nat → Option Portion
  | 0 => some .a
  | 1 => some .b
  | 2 => some .c
  | _ => none

/-- A portion set is a mask with A at bit 0 (11.1, Sets). -/
def PortionSet.code (s : PortionSet) : Nat := s.a.toNat + 2 * s.b.toNat + 4 * s.c.toNat
def PortionSet.ofCode (n : Nat) : PortionSet := ⟨n.testBit 0, n.testBit 1, n.testBit 2⟩

/-- The mask with bit i set for each member i of a list of bits. -/
def maskOf (bits : List Nat) : Nat := bits.foldl (fun m i => m ||| 2 ^ i) 0

/-- A coach set uses bit n - 1 for coach n (11.1, Sets). -/
def CoachSet.code (a : CoachSet) : Nat := maskOf (a.members.map (·.val))
def CoachSet.ofCode (n : Nat) : CoachSet := tabulate (fun c => n.testBit c.val)

def Level.code : Level → Nat
  | .full => 0
  | .dim => 1
  | .dark => 2
def Level.ofCode : Nat → Option Level
  | 0 => some .full
  | 1 => some .dim
  | 2 => some .dark
  | _ => none

def LinkState.code : LinkState → Nat
  | .expected => 0
  | .online => 1
  | .lost => 2

def PortionState.code : PortionState → Nat
  | .vacant => 0
  | .attached => 1
  | .detaching => 2

def Phase.code : Phase → Nat
  | .noRoute => 0
  | .atPlatform => 1
  | .doorsReleased => 2
  | .enRoute => 3
  | .approaching => 4
  | .terminated => 5

def Side.code : Side → Nat
  | .left => 0
  | .right => 1
  | .both => 2
def Side.ofCode : Nat → Option Side
  | 0 => some .left
  | 1 => some .right
  | 2 => some .both
  | _ => none

def StopKind.code : StopKind → Nat
  | .call => 0
  | .split => 1
def StopKind.ofCode : Nat → Option StopKind
  | 0 => some .call
  | 1 => some .split
  | _ => none

/-- CONFIRMED 0 and PROVISIONAL 1 (11.1). -/
def Hold.code : Hold → Nat
  | .confirmed => 0
  | .provisional _ => 1
/-- The hold a code asks for, a PROVISIONAL one with the ticks given. -/
def Hold.ofCode (ticks : Nat) : Nat → Option Hold
  | 0 => some .confirmed
  | 1 => some (.provisional ticks)
  | _ => none

def ResStatus.code : ResStatus → Nat
  | .upcoming => 0
  | .active => 1

/-- Notice kinds in the order of R94's table (DEDUCED, log 9). -/
def NoticeKind.code : NoticeKind → Nat
  | .delay => 0
  | .service => 1
  | .divide => 2
  | .custom => 3
  | .nextStop => 4
  | .approaching => 5
  | .atStop => 6
/-- The kinds that ISSUE may name (R99). -/
def NoticeKind.general : Nat → Option NoticeKind
  | 0 => some .delay
  | 1 => some .service
  | 2 => some .divide
  | 3 => some .custom
  | _ => none

/-- Entry states, FREE first (R94; DEDUCED, log 9). -/
def NoticeEntry.stateCode (n : NoticeEntry) : Nat :=
  match n.live with
  | none => 0
  | some l =>
    match l.state with
    | .delivering _ => 1
    | .delivered => 2
    | .partly => 3

def PortState.code : PortState → Nat
  | .down => 0
  | .greeting => 1
  | .bound => 2
  | .unbound => 3
  | .mismatched => 4

/-- Text slot states, absent first (R85; DEDUCED, log 9). -/
def TextSlot.stateCode (t : TextSlot) : Nat := if t.retiring then 2 else 1

def StatusCode.code : StatusCode → Nat
  | .ok => 0
  | .more => 1
  | .busy => 2
  | .malformed => 3
  | .unknown => 4
  | .range => 5
  | .conflict => 6
  | .notServed => 7
  | .past => 8
  | .full => 9
  | .noSpace => 10
  | .inUse => 11
  | .retiring => 12
  | .phase => 13
  | .detaching => 14
  | .mode => 15
  | .dark => 16
  | .stale => 17
  | .unbound => 18

def Mode.code : Mode → Nat
  | .service => 0
  | .stabling => 1
  | .stabled => 2

def StartKind.code : StartKind → Nat
  | .quick => 0
  | .checked => 1

def DarkPolicy.code : DarkPolicy → Nat
  | .refuseAll => 0
  | .seatsInDark => 1

def LineLevel.code : LineLevel → Nat
  | .high => 0
  | .low => 1
def LineLevel.ofCode : Nat → Option LineLevel
  | 0 => some .high
  | 1 => some .low
  | _ => none

def LineFunction.code : LineFunction → Nat
  | .unused => 0
  | .standstill => 1
  | .doorsLeft => 2
  | .doorsRight => 3
  | .beacon => 4
  | .couplerB => 5
  | .couplerC => 6
  | .crewKey => 7
def LineFunction.ofCode : Nat → Option LineFunction
  | 0 => some .unused
  | 1 => some .standstill
  | 2 => some .doorsLeft
  | 3 => some .doorsRight
  | 4 => some .beacon
  | 5 => some .couplerB
  | 6 => some .couplerC
  | 7 => some .crewKey
  | _ => none
def LineFunction.all : List LineFunction :=
  [.unused, .standstill, .doorsLeft, .doorsRight, .beacon, .couplerB, .couplerC, .crewKey]

/-- The check times in ms by their codes; off is 0 (11.1, R166). -/
def checkTimeMs (code : Fin 8) : Nat := [0, 10, 20, 50, 100, 200, 500, 1000].getD code.val 0

/-- Message kinds that the TW16 sends on a coach link (11.3). -/
def LinkKind.code : LinkKind → Nat
  | .welcome => 0x11
  | .answer => 0x12
  | .push => 0x13
  | .pull => 0x14
  | .level => 0x15
  | .release => 0x16
  | .refresh => 0x17

/-- A condition's kind, its place in R184's table from STARTED 0 to POOL_LOW 15. -/
def Condition.kind : Condition → Fin 16
  | .started => 0
  | .arrived _ => 1
  | .departed _ => 2
  | .detachDone _ => 3
  | .noticeDelivered _ => 4
  | .noticePartial _ => 5
  | .provisionalLapsed _ => 6
  | .coachJoined _ => 7
  | .stabledReached => 8
  | .pattern => 9
  | .coachLost _ => 10
  | .greetMismatch _ => 11
  | .detachForced _ => 12
  | .unexpectedUncouple _ => 13
  | .doorSideMismatch _ => 14
  | .poolLow => 15

/-- The bit that stands for a condition's subject in the attention summary (11.2). -/
def Condition.subjectBit : Condition → Nat
  | .started | .stabledReached | .pattern | .poolLow => 0
  | .arrived p | .departed p | .detachDone p | .detachForced p | .unexpectedUncouple p | .doorSideMismatch p => p.code
  | .noticeDelivered e | .noticePartial e => e.val
  | .provisionalLapsed c | .coachJoined c | .coachLost c => c.val
  | .greetMismatch p => p.val

/-- The journey class is the first ten kinds of R184's table, the fault class the rest. -/
def Condition.journey (c : Condition) : Bool := c.kind.val < 10

end Sys2Proof.Machine
end

