-- ==== Sys2Proof/Machine/Operands.lean ====
section
/-! DEFINITION. Frames and their parameter fields (11): byte order, the frame check, cutting a body into fields,
the shape of an order's parameters, and the frames the part returns and sends. -/

namespace Sys2Proof.Machine

/-! ## Numbers (11.1): unsigned, high byte first -/

def u8 (n : Nat) : List Byte := [BitVec.ofNat 8 n]
def u16 (n : Nat) : List Byte := [BitVec.ofNat 8 (n / 256), BitVec.ofNat 8 n]
def u24 (n : Nat) : List Byte := [BitVec.ofNat 8 (n / 65536), BitVec.ofNat 8 (n / 256), BitVec.ofNat 8 n]
def u32 (n : Nat) : List Byte :=
  [BitVec.ofNat 8 (n / 16777216), BitVec.ofNat 8 (n / 65536), BitVec.ofNat 8 (n / 256), BitVec.ofNat 8 n]

/-- The number that bytes spell, high byte first. -/
def ofBytes (bytes : List Byte) : Nat := bytes.foldl (fun n b => n * 256 + b.toNat) 0

/-- An offset is one byte in two's complement (11.1). -/
def offsetByte (i : Int) : List Byte := [BitVec.ofInt 8 i]
def offsetOf (n : Nat) : Int := (BitVec.ofNat 8 n).toInt

/-! ## The frame check (11.1): x^16 + x^12 + x^5 + 1 from 0xFFFF, most significant bit first -/

def crcShift (crc : BitVec 16) : BitVec 16 :=
  if crc.msb then (crc <<< 1) ^^^ 0x1021#16 else crc <<< 1

def crcByte (crc : BitVec 16) (b : Byte) : BitVec 16 :=
  (List.range 8).foldl (fun c _ => crcShift c) (crc ^^^ (b.zeroExtend 16 <<< 8))

def frameCheck (bytes : List Byte) : Nat := (bytes.foldl crcByte 0xFFFF#16).toNat

/-! ## Parameter fields (11.1) -/

/-- Cut a body into its fields; none unless they fill it exactly. A field with id 0x80 has a 2-byte length. -/
def cutFields : Nat → List Byte → Option (List RawField)
  | _, [] => some []
  | 0, _ :: _ => none
  | fuel + 1, id :: rest =>
    let head : Option (Nat × List Byte) :=
      if id.toNat = Config.itemField then
        match rest with
        | h :: l :: tail => some (ofBytes [h, l], tail)
        | _ => none
      else
        match rest with
        | l :: tail => some (l.toNat, tail)
        | [] => none
    match head with
    | none => none
    | some (length, tail) =>
      if tail.length < length then none
      else (cutFields fuel (tail.drop length)).map (⟨id.toNat, tail.take length⟩ :: ·)

/-- The fields of a body, none unless they fill it exactly. -/
def fieldsOf (body : List Byte) : Option (List RawField) := cutFields body.length body

/-- The bytes of a field. -/
def fieldBytes (f : RawField) : List Byte :=
  u8 f.id ++ (if f.id = Config.itemField then u16 f.value.length else u8 f.value.length) ++ f.value

def fieldsBytes (fs : List RawField) : List Byte := fs.flatMap fieldBytes

/-- An item is one field with id 0x80 whose value is the item's fields (11.2). -/
def itemBytes (i : Item) : List Byte := fieldBytes ⟨Config.itemField, fieldsBytes i⟩

/-! ## The shape of a list of fields (R198) -/

/-- A parameter: its id, the lengths its value may have, and whether it must be there. -/
structure Param where
  id : Nat
  least : Nat
  most : Nat
  required : Bool
  deriving DecidableEq, Repr

def need (id width : Nat) : Param := ⟨id, width, width, true⟩
def may (id width : Nat) : Param := ⟨id, width, width, false⟩

/-- No two fields have one id. -/
def distinctIds : List RawField → Bool
  | [] => true
  | f :: fs => fs.all (fun g => g.id != f.id) && distinctIds fs

/-- Whether fields have the shape of R198: every id used by the order, none twice, every length the parameter's,
every required one there. Where not, the owner answers MALFORMED. -/
def shaped (params : List Param) (fs : List RawField) : Bool :=
  fs.all (fun f => params.any (fun p => p.id == f.id && within p.least p.most f.value.length)) &&
    distinctIds fs && params.all (fun p => !p.required || fs.any (fun f => f.id == p.id))

/-- The bytes of a field, if it is there. -/
def bytesOf (fs : List RawField) (id : Nat) : Option (List Byte) := (fs.find? (fun f => f.id == id)).map (·.value)

/-- The number a field spells, if it is there. -/
def optNum (fs : List RawField) (id : Nat) : Option Nat := (bytesOf fs id).map ofBytes

/-- The number of a field that the shape requires; 0 where it is absent. -/
def num (fs : List RawField) (id : Nat) : Nat := (optNum fs id).getD 0

/-- An optional number's range: an absent one passes. -/
def optWithin (lo hi : Nat) (n : Option Nat) : Bool := n.all (within lo hi)

/-- The shape of an answered field list: absent optional values are left out (11.1). -/
def presentFields (fs : List (Nat × Option (List Byte))) : List RawField :=
  fs.filterMap (fun f => f.2.map (fun v => ⟨f.1, v⟩))

/-! ## Replies -/

/-- A refused order carries its status and no results (R179). -/
def refuse (code : StatusCode) : Reply := ⟨code, 0, [], []⟩
/-- OK with the results of the owner's rule, numbered from 1 (11.2). -/
def okWith (results : List RawField) : Reply := ⟨.ok, 0, results, []⟩

/-- The first check that fails gives the refusal: a check is whether it fails, and the code it refuses with. -/
def refusal (checks : List (Bool × StatusCode)) : Option StatusCode := (checks.find? (·.1)).map (·.2)

/-- An order with its checks in order and its effect when all pass. -/
def judged (checks : List (Bool × StatusCode)) (s : State) (effect : State × Reply) : State × Reply :=
  match refusal checks with
  | some code => (s, refuse code)
  | none => effect

/-! ## Frames the crew port returns (11.2) -/

/-- The answer frame of FETCH and REFETCH. A body is sent whole with its true length, also where items without text come to
more than the 512 bytes that R199 names (DEDUCED, log 37, unsafe). -/
def CrewAnswer.frame (a : CrewAnswer) : List Byte :=
  let body := fieldsBytes a.reply.results ++ a.reply.items.flatMap itemBytes
  let checked := u8 a.tag ++ u8 a.kind ++ u8 a.reply.status.code ++ u16 a.reply.generation ++ u16 body.length ++ body
  Config.answerMark :: checked ++ u16 (frameCheck checked)

/-- An ORDER frame after the transfer kind byte, as the host sends it (11.2). -/
def orderFrame (tag kind : Nat) (fs : List RawField) : List Byte :=
  let body := fieldsBytes fs
  let checked := u8 tag ++ u8 kind ++ u16 body.length ++ body
  checked ++ u16 (frameCheck checked)

/-- How many bytes an ORDER frame has after the transfer kind byte, by its length bytes; none while those are not
there. -/
def orderFrameLength (bytes : List Byte) : Option Nat :=
  match bytes with
  | _ :: _ :: h :: l :: _ => some (4 + ofBytes [h, l] + 2)
  | _ => none

/-- The frame of an ORDER transfer judged as R198 gives it: the order, or none for CHECK. -/
def judgeOrder (frame : List Byte) : Option Order :=
  match frame with
  | tag :: kind :: h :: l :: rest =>
    let length := ofBytes [h, l]
    let body := rest.take length
    if length ≤ Config.maxOrderBody ∧ rest.length = length + 2 ∧ tag.toNat ≤ 15 ∧
        ofBytes (rest.drop length) = frameCheck (tag :: kind :: h :: l :: body) then
      (fieldsOf body).map (fun fs => ⟨tag.toNat, kind.toNat, fs⟩)
    else none
  | _ => none

/-! ## Coach link frames (11.3) -/

/-- A frame of the coach link from its kind and body. -/
def linkFrame (kind : Nat) (body : List Byte) : List Byte :=
  let checked := u8 kind ++ u16 body.length ++ body
  Config.sync :: checked ++ u16 (frameCheck checked)

/-- The bytes of a message the TW16 sends. -/
def LinkMessage.bytes (m : LinkMessage) : List Byte :=
  linkFrame m.kind.code (fieldsBytes m.fields ++ m.items.flatMap itemBytes)

/-- A frame from a CDC that passes R200, with what its kind's rule reads. -/
inductive CoachFrame where
  | greet (label : List Byte) (maximum revision : Nat)
  | query (fields : List RawField)
  | noticeReceipt (entry edition : Nat)
  | levelReceipt
  | releaseReceipt
  | wake
  deriving DecidableEq, Repr

/-- What the bytes behind a sync byte come to (R200). -/
inductive Received where
  /-- A frame not yet whole. -/
  | nothing
  | dropped
  /-- A frame, with how many bytes it has behind the sync byte. -/
  | passed (frame : CoachFrame) (length : Nat)
  deriving DecidableEq, Repr

/-- The frame of a kind with its fields, none where a field that the port reads is wrong (R200). The spec gives the
protocol revision of a GREET no range, by which 11.1 sizes a number: it is read as one byte, 1..255, and a field of
another width makes a frame error (DESIGN CHOICE, log 32, unsafe). A GREET, RECEIPT or WAKE with a field that its
message does not have is one too (DEDUCED, log 33, safe). -/
def coachFrameOf (kind : Nat) (fs : List RawField) : Option CoachFrame :=
  match kind with
  | 0x01 =>
    if shaped [⟨1, 1, 3, true⟩, need 2 1, need 3 1] fs && greetShape ((bytesOf fs 1).getD []) (num fs 2) (num fs 3) then
      some (.greet ((bytesOf fs 1).getD []) (num fs 2) (num fs 3))
    else none
  | 0x02 => if (queryTag fs).isSome then some (.query fs) else none
  | 0x03 =>
    if shaped [need 1 1, need 2 1, need 3 2] fs && num fs 1 == 0 && receiptShape (num fs 2) (num fs 3) then
      some (.noticeReceipt (num fs 2) (num fs 3))
    else if shaped [need 1 1] fs && num fs 1 == 1 then some .levelReceipt
    else if shaped [need 1 1] fs && num fs 1 == 2 then some .releaseReceipt
    else none
  | 0x04 => if fs.isEmpty then some .wake else none
  | _ => none

/-- How many bytes a frame has from its sync byte on, by the length in the bytes behind it; none while that is not
there. -/
def linkFrameLength (behind : List Byte) : Option Nat :=
  match behind with
  | _ :: h :: l :: _ => some (4 + ofBytes [h, l] + 2)
  | _ => none

/-- Whether the carrier was absent while a frame was arriving: a break, counted from the sync byte on, stands behind the
sync byte and before the frame's last byte (R200). -/
def frameCut (breaks : List Nat) (behind : List Byte) : Bool :=
  breaks.any (fun b => 0 < b && (linkFrameLength behind).all (b < ·))

/-- Judge the bytes behind a sync byte (R200). -/
def judgeCoachFrame (breaks : List Nat) (behind : List Byte) : Received :=
  if frameCut breaks behind then .dropped
  else
    match behind with
    | kind :: h :: l :: rest =>
      let length := ofBytes [h, l]
      if Config.maxLinkBody < length ∨ ¬ within 1 4 kind.toNat then .dropped
      else if rest.length < length + 2 then .nothing
      else
        let body := rest.take length
        if ofBytes ((rest.drop length).take 2) ≠ frameCheck (kind :: h :: l :: body) then .dropped
        else
          match (fieldsOf body).bind (coachFrameOf kind.toNat) with
          | some f => .passed f (3 + length + 2)
          | none => .dropped
    | _ => .nothing

/-- Hunt received bytes for sync bytes, behind a number of bytes that belong to a frame passed before, and judge the
frame that begins at each: behind a dropped frame the hunt goes on with the byte after its sync byte, behind a passed one
with the byte after its last (R200). The bytes of a frame not yet whole are not kept (DESIGN CHOICE, log 22,
safe). -/
def receive : List Nat → Nat → List Byte → List Received
  | _, _, [] => []
  | breaks, skip, b :: behind =>
    let onward := breaks.map (· - 1)
    if 0 < skip then receive onward (skip - 1) behind
    else if b ≠ Config.sync then receive onward 0 behind
    else
      match judgeCoachFrame breaks behind with
      | .nothing => []
      | .dropped => .dropped :: receive onward 0 behind
      | .passed f length => .passed f length :: receive onward length behind

/-- The message kind of a frame a CDC sends (11.3). -/
def CoachFrame.kind : CoachFrame → Nat
  | .greet _ _ _ => 0x01
  | .query _ => 0x02
  | .noticeReceipt _ _ | .levelReceipt | .releaseReceipt => 0x03
  | .wake => 0x04

/-- A number in one byte, or in two, and in two bytes, or in four, where it is too large for its field. -/
def oneByte (n : Nat) : List Byte := if n < 256 then u8 n else u16 n
def twoBytes (n : Nat) : List Byte := if n < 65536 then u16 n else u32 n

/-- The fields of a frame a CDC sends (11.3). -/
def CoachFrame.fields : CoachFrame → List RawField
  | .greet label maximum revision => [⟨1, label⟩, ⟨2, oneByte maximum⟩, ⟨3, oneByte revision⟩]
  | .query fs => fs
  | .noticeReceipt entry edition => [⟨1, u8 0⟩, ⟨2, oneByte entry⟩, ⟨3, twoBytes edition⟩]
  | .levelReceipt => [⟨1, u8 1⟩]
  | .releaseReceipt => [⟨1, u8 2⟩]
  | .wake => []

/-- The bytes of a frame a CDC sends (11.3). -/
def CoachFrame.bytes (f : CoachFrame) : List Byte := linkFrame f.kind (fieldsBytes f.fields)

/-- Whether the lengths in a frame can say how long its fields and its body are; else there is no such frame. -/
def CoachFrame.carried (f : CoachFrame) : Bool := f.fields.all fieldFits && bodyLength f.fields < 65536

/-- Whether a frame passes R200 when it arrives whole: its operands are in their ranges, its body is not too long. -/
def CoachFrame.fits : CoachFrame → Bool
  | .greet label maximum revision => greetShape label maximum revision
  | .query fs => queryShape fs
  | .noticeReceipt entry edition => receiptShape entry edition
  | .levelReceipt | .releaseReceipt | .wake => true

end Sys2Proof.Machine
end

