-- ==== Sys2Proof/Machine/Flags.lean ====
section
/-! DEFINITION. Generations with the REFRESH flags they set (R11, R28, R57, R96, R156), the attention set and its
lines (R184, R185), ANSWER_READY and the ports' own carrier (R180, R144). -/

namespace Sys2Proof.Machine

/-- A count in 1..65535 advances by one, from 65535 to 1 (R11, R28, R57, R95, R96). -/
def nextCount (n : Nat) : Nat := if n < 65535 then n + 1 else 1

/-! ## REFRESH flags and generations -/

/-- Set flags on every BOUND port (R156). -/
def refreshBound (f : RefreshFlags → RefreshFlags) (ports : Vector Port 16) : Vector Port 16 :=
  tabulate (fun p => if ports[p].state = .bound then { ports[p] with refresh := f ports[p].refresh } else ports[p])

/-- R11: the formation generation advances, and FORMATION is set on every BOUND port. -/
def advanceFormation (s : State) : State :=
  { s with formation.gen := nextCount s.formation.gen, ports := refreshBound (fun r => { r with formation := true }) s.ports }

/-- R28: the route generation advances, and ROUTE is set on every BOUND port. -/
def advanceRoute (s : State) : State :=
  { s with route.gen := nextCount s.route.gen, ports := refreshBound (fun r => { r with route := true }) s.ports }

/-- R57: a coach's seat generation advances, and SEATS is set on the port BOUND to it. -/
def advanceSeat (c : Fin 16) (s : State) : State :=
  { s with
    store.seatGens := update s.store.seatGens c nextCount,
    ports := tabulate (fun p =>
      if s.ports[p].state = .bound ∧ s.ports[p].bound = some c then
        { s.ports[p] with refresh.seats := true }
      else s.ports[p]) }

/-- R57: one advance for each coach of a list. -/
def advanceSeats (cs : List (Fin 16)) (s : State) : State := cs.foldl (fun s c => advanceSeat c s) s

/-- R96: the notice generation advances; no REFRESH class belongs to it. -/
def advanceNotice (s : State) : State := { s with notice.gen := nextCount s.notice.gen }

/-- Whether one entry changed in a way that R96 counts: an edition started, the entry was freed, or its target lost a
portion or a coach. -/
def entryNews (before after : NoticeEntry) : Bool :=
  before.counter != after.counter ||
    (match before.live, after.live with
     | some _, none => true
     | some l, some l' => l.target != l'.target
     | _, _ => false)

/-- Whether R96 counts any change of the notices between two states. -/
def noticeNews (s t : State) : Bool := all24.any (fun e => entryNews (s.entry e) (t.entry e))

/-- Do something to the notices; the notice generation advances once for all of it, if R96 counts any of it. -/
def withNoticeNews (f : State → State) (s : State) : State :=
  if noticeNews s (f s) then advanceNotice (f s) else f s

/-! ## The attention set -/

/-- Record a pair; a pair already there leaves the set as it was (R184). -/
def record (c : Condition) (s : State) : State :=
  if c ∈ s.crew.attention then s else { s with crew.attention := s.crew.attention ++ [c] }

/-- Remove a pair. -/
def retract (c : Condition) (s : State) : State :=
  { s with crew.attention := s.crew.attention.filter (· ≠ c) }

/-- Whether a class has an unmasked pair (R185). -/
def unmaskedPair (s : State) (journey : Bool) : Bool :=
  s.crew.attention.any (fun c => c.journey == journey && !s.settings.masked[c.kind])

/-- ATN0 (R185); deasserted throughout start-up (R195), and while RESET_N is held (DESIGN CHOICE, log 3, unsafe). -/
def atn0 (s : State) : Bool :=
  s.running && (unmaskedPair s true || (!s.settings.twoLines && unmaskedPair s false))

/-- ATN1 (R185); deasserted as ATN0 is (log 3). -/
def atn1 (s : State) : Bool := s.running && s.settings.twoLines && unmaskedPair s false

/-- The answer queue: the answers made and not yet fetched, in the order of their making (R180). -/
def answerQueue (s : State) : List CrewAnswer :=
  s.crew.slots.filterMap (fun k =>
    match k.state with
    | .answerReady r => some ⟨k.order.tag, k.order.kind, r⟩
    | _ => none)

/-- ANSWER_READY is asserted while the queue holds an answer (R180); deasserted during start-up (R195), and while RESET_N is
held (DESIGN CHOICE, log 3, unsafe). -/
def answerReadyLine (s : State) : Bool := s.running && !(answerQueue s).isEmpty

/-- R144: the carrier that a coach port drives on CL_TX: in every port state from the end of start-up on; none during
start-up, a warm restart and while RESET_N is held (R195 to R197). -/
def carrierOut (s : State) (_port : Fin 16) : Bool := s.running

/-- Place of a kind's subject mask and mask flag in the attention summary (11.2). -/
def summaryOf (s : State) (kind : Fin 16) : List Byte :=
  u8 (flagCode s.settings.masked[kind]) ++
    u24 (maskOf ((s.crew.attention.filter (fun c => c.kind == kind)).map (·.subjectBit)))

/-- The attention summary, 64 bytes (R187, 11.2). -/
def attentionSummary (s : State) : List Byte := all16.flatMap (summaryOf s)

end Sys2Proof.Machine
end

