-- ==== Sys2Proof/Machine/Memory.lean ====
section
/-! DEFINITION. Record memory's blocks and counts, and the text store's references (R79 to R93). -/

namespace Sys2Proof.Machine

/-! ## The blocks and their uses (R79) -/

/-- The blocks that are not free: excluded, held by a reservation, held by a text slot. -/
def heldBlocks (s : State) : List Nat :=
  s.memory.excludedBlocks ++ s.store.reservations.map (·.block) ++ s.memory.texts.flatMap (·.chain)

/-- The free blocks by rising number. -/
def freeBlocks (s : State) : List Nat :=
  let held := heldBlocks s
  (List.range Config.poolBlocks).filter (fun b => !held.contains b)

/-- The four uses of a block. -/
inductive BlockUse where
  | free
  | reservation (handle : Nat)
  | text (id : Nat)
  | excluded
  deriving DecidableEq, Repr

/-- The use of a block, and the record that holds it. -/
def blockUse (s : State) (b : Nat) : BlockUse :=
  if b ∈ s.memory.excludedBlocks then .excluded
  else
    match s.store.reservations.find? (fun r => r.block == b), s.memory.texts.find? (fun t => t.chain.contains b) with
    | some r, _ => .reservation r.handle
    | none, some t => .text t.id
    | none, none => .free

/-- The block that a granted reservation claim takes: the free one with the lowest number. Any free block serves any
claim (04, introduction); which one is taken is the model's choice (DESIGN CHOICE, log 16, safe). -/
def grantedBlock (s : State) : Nat := (freeBlocks s).headD 0

/-- The blocks that a granted text claim of k blocks takes, in the slot's order (R82): the k free ones with the lowest
numbers (DESIGN CHOICE, log 16, safe). -/
def grantedChain (s : State) (k : Nat) : List Nat := (freeBlocks s).take k

/-! ## The counts -/

/-- R84: POOL_LOW stands in the attention set exactly while the free count is below the low-water mark. -/
def settlePool (s : State) : State :=
  if s.memory.free < s.settings.lowWater then record .poolLow s else retract .poolLow s

/-- R81: a reservation claim that was granted. -/
def takeBlock (s : State) : State :=
  settlePool { s with memory.free := s.memory.free - 1, memory.reserved := s.memory.reserved + 1 }

/-- R81: a retired reservation's block comes back. -/
def returnBlock (s : State) : State :=
  settlePool { s with memory.free := s.memory.free + 1, memory.reserved := s.memory.reserved - 1 }

/-- R82: the blocks a text of L bytes takes. -/
def textBlocks (length : Nat) : Nat := (length + (Config.blockBytes - 1)) / Config.blockBytes

/-- R82: the reserve that a text claim must leave free. -/
def reserve (s : State) : Nat := s.settings.reservationFloor - s.memory.reserved

/-- R82: whether a text claim of k blocks is granted. -/
def textGranted (s : State) (k : Nat) : Bool := reserve s + k ≤ s.memory.free

/-- The slot with an id, if it is present or retiring. -/
def State.findText (s : State) (id : Nat) : Option TextSlot := s.memory.texts.find? (fun t => t.id == id)

/-- The bytes served for a slot (R91). -/
def State.textBytes (s : State) (id : Nat) : List Byte := ((s.findText id).map (·.bytes)).getD []

/-- R88: what adding a reference is refused with, if it is. -/
def addRefused (s : State) (id : Nat) : Option StatusCode :=
  match s.findText id with
  | none => some .unknown
  | some t => if t.retiring then some .retiring else none

/-- R88: a granted add. -/
def addRef (id : Nat) (s : State) : State :=
  { s with memory.texts := s.memory.texts.map (fun t => if t.id = id then { t with refs := t.refs + 1 } else t) }

/-- R90: a slot is freed, and its blocks come back. -/
def freeText (t : TextSlot) (s : State) : State :=
  settlePool { s with
    memory.free := s.memory.free + textBlocks t.bytes.length,
    memory.text := s.memory.text - textBlocks t.bytes.length,
    memory.texts := s.memory.texts.filter (fun u => u.id ≠ t.id) }

/-- R88: a release; a retiring slot whose count it brings to 0 is freed. -/
def releaseRef (id : Nat) (s : State) : State :=
  match s.findText id with
  | none => s
  | some t =>
    if t.retiring ∧ t.refs ≤ 1 then freeText t s
    else
      { s with memory.texts := s.memory.texts.map (fun u => if u.id = id then { u with refs := u.refs - 1 } else u) }

/-- Release the reference of a record that may have none. -/
def releaseOpt (id : Option Nat) (s : State) : State :=
  match id with
  | none => s
  | some id => releaseRef id s

/-- R88: pass a record from one slot to another: the add first, then the release; nothing where they are one slot. -/
def moveRef (old new : Option Nat) (s : State) : State :=
  if old = new then s
  else
    releaseOpt old (match new with
      | none => s
      | some id => addRef id s)

end Sys2Proof.Machine
end

