-- ==== Sys2Proof/Machine/Editions.lean ====
section
/-! DEFINITION. The notice unit's operations: targets and reach, editions, freeing, the per-coach lists, receipts, and
coaches that come and go (R97 to R118). None of them advances the notice generation: the order or event that calls
them does so once, by `withNoticeNews` (R96). -/

namespace Sys2Proof.Machine

/-! ## Targets and reach (R97) -/

/-- Whether a coach is in a target. -/
def inTarget (s : State) (t : Target) (c : Fin 16) : Bool :=
  match t with
  | .portions ps => (s.portionOf c).any ps.mem
  | .coaches cs => cs[c]

/-- Whether a coach is reachable for a target. -/
def reachable (s : State) (t : Target) (c : Fin 16) : Bool :=
  inTarget s t c && (s.boundPort c).isSome && (s.coach c).any (fun k => k.level != .dark)

/-! ## Pending lists (R107) -/

def PendingItem.entry : PendingItem → Fin 24
  | .push e _ => e
  | .pull e => e

def PendingItem.isPush : PendingItem → Bool
  | .push _ _ => true
  | .pull _ => false

/-- Place an item; it replaces any item of its entry. -/
def CoachLists.place (i : PendingItem) (l : CoachLists) : CoachLists :=
  { l with pending := l.pending.filter (fun j => j.entry ≠ i.entry) ++ [i] }

/-- Remove the pending PUSH of an entry. -/
def CoachLists.dropPush (e : Fin 24) (l : CoachLists) : CoachLists :=
  { l with pending := l.pending.filter (fun j => !(j.isPush && j.entry == e)) }

/-! ## Editions and freeing (R98, R102) -/

/-- R98: start an edition in a live entry. -/
def startEdition (e : Fin 24) (s : State) : State :=
  match (s.entry e).live with
  | none => s
  | some l =>
    let edition := (s.entry e).counter
    let reach : CoachSet := tabulate (fun c => reachable s l.target c)
    { s with
      notice.entries := update s.notice.entries e (fun _ =>
        { counter := nextCount edition,
          live := some { l with
            edition := edition, start := s.time.tickCount,
            state := .delivering s.settings.receiptDeadline, receipted := CoachSet.none, delivery := reach } }),
      notice.lists := tabulate (fun c =>
        if reach[c] then (s.listsOf c).place (.push e edition) else s.listsOf c) }

/-- R102: free a live entry, with pulls or without. -/
def freeEntry (e : Fin 24) (pulls : Bool) (s : State) : State :=
  match (s.entry e).live with
  | none => s
  | some l =>
    releaseRef l.text { s with
      notice.entries := update s.notice.entries e (fun n => { n with live := none }),
      notice.lists := tabulate (fun c =>
        let rest := (s.listsOf c).dropPush e
        if pulls && l.holders[c] then rest.place (.pull e) else rest) }

/-! ## Completion (R112, R114) -/

/-- R112: whether every coach of a non-empty delivery set has receipted. -/
def LiveNotice.complete (l : LiveNotice) : Bool := !l.delivery.isEmpty && l.delivery.subset l.receipted

/-- R112, R114: judge an entry after a coach has left its delivery set or joined its receipted set. -/
def settleEntry (e : Fin 24) (s : State) : State :=
  match (s.entry e).live with
  | none => s
  | some l =>
    match l.state with
    | .delivering _ =>
      if l.complete then
        record (.noticeDelivered e) (s.updEntry e (NoticeEntry.mapLive (fun l => { l with state := .delivered })))
      else s
    | .delivered =>
      if l.delivery.isEmpty then s.updEntry e (NoticeEntry.mapLive (fun l => { l with state := .partly })) else s
    | .partly => s

def settleEntries (s : State) : State := all24.foldl (fun s e => settleEntry e s) s

/-- Change every live entry. -/
def mapEntries (f : LiveNotice → LiveNotice) (s : State) : State :=
  { s with notice.entries := tabulate (fun e => (s.entry e).mapLive f) }

/-! ## Coaches that come and go (R115 to R118) -/

/-- R115: a coach has become reachable for the entries that `now` names and for which it is reachable: each is pushed to
it, and it joins the delivery sets of the DELIVERING ones. -/
def joinEntries (c : Fin 16) (now : LiveNotice → Bool) (s : State) : State :=
  all24.foldl (fun s e =>
    match (s.entry e).live with
    | none => s
    | some l =>
      if now l && reachable s l.target c then
        let pushed := s.updLists c (CoachLists.place (.push e l.edition))
        match l.state with
        | .delivering _ => pushed.updEntry e (NoticeEntry.mapLive (fun l => { l with delivery := l.delivery.insert c }))
        | _ => pushed
      else s) s

/-- R115 for every live entry. -/
def reachCoach (c : Fin 16) (s : State) : State := joinEntries c (fun _ => true) s

/-- R116 but for the completion check: a coach's level has become DARK. -/
def darkCoach (c : Fin 16) (s : State) : State :=
  mapEntries (fun l => { l with delivery := l.delivery.erase c, receipted := l.receipted.erase c })
    (s.updLists c (fun l => { l with pending := l.pending.filter (fun i => !i.isPush) }))

/-- R117: a coach's port has left BOUND. -/
def unreachCoach (c : Fin 16) (s : State) : State :=
  settleEntries (mapEntries
    (fun l => { l with
      delivery := l.delivery.erase c, receipted := l.receipted.erase c, holders := l.holders.erase c })
    (s.updLists c (fun _ => .empty)))

/-- R117: a CDC restart of a coach; it stays outstanding in the entries that are DELIVERING. -/
def restartCoach (c : Fin 16) (s : State) : State :=
  settleEntries (mapEntries
    (fun l => { l with
      receipted := l.receipted.erase c, holders := l.holders.erase c,
      delivery := match l.state with
        | .delivering _ => l.delivery
        | _ => l.delivery.erase c })
    (s.updLists c (fun _ => .empty)))

/-- Whether a target holds a portion. -/
def Target.holds (t : Target) (p : Portion) : Bool :=
  match t with
  | .portions ps => ps.mem p
  | .coaches _ => false

/-- R118 for one entry that a coach leaves by changing its portion. -/
def leaveByPortion (c : Fin 16) (e : Fin 24) (old new : Portion) (s : State) : State :=
  match (s.entry e).live with
  | none => s
  | some l =>
    if l.target.holds old && !l.target.holds new then
      (s.updLists c (fun k => if l.holders[c] then (k.dropPush e).place (.pull e) else k.dropPush e)).updEntry e
        (NoticeEntry.mapLive (fun l => { l with
          delivery := l.delivery.erase c, receipted := l.receipted.erase c, holders := l.holders.erase c }))
    else s

/-- R5, R118: a coach whose entry now names another portion leaves and joins notices. The PULLs of the entries that it
leaves are placed by rising entry number (DESIGN CHOICE, log 29, safe). -/
def movePortionNotices (c : Fin 16) (old new : Portion) (s : State) : State :=
  joinEntries c (fun l => l.target.holds new && !l.target.holds old)
    (settleEntries (all24.foldl (fun s e => leaveByPortion c e old new s) s))

/-- Whether nothing is left in a target. -/
def Target.isEmpty : Target → Bool
  | .portions ps => ps.isEmpty
  | .coaches cs => cs.isEmpty

/-- A coach set without some coaches; a portion set is left. -/
def Target.withoutCoaches (gone : CoachSet) : Target → Target
  | .portions ps => .portions ps
  | .coaches cs => .coaches (cs.without gone)

/-- A portion set without a portion; a coach set is left. -/
def Target.withoutPortion (p : Portion) : Target → Target
  | .portions ps => .portions (ps.without p)
  | .coaches cs => .coaches cs

/-- The coaches of `gone` leave the three sets of a notice. -/
def LiveNotice.leave (gone : CoachSet) (l : LiveNotice) : LiveNotice :=
  { l with delivery := l.delivery.without gone, receipted := l.receipted.without gone, holders := l.holders.without gone }

/-- Free every entry whose target is empty, without pulls (R6, R18). -/
def freeEmptyTargets (s : State) : State :=
  all24.foldl (fun s e => if (s.entry e).live.any (fun l => l.target.isEmpty) then freeEntry e false s else s) s

/-- The lists of some coaches are emptied. -/
def emptyLists (gone : CoachSet) (s : State) : State :=
  { s with notice.lists := tabulate (fun c => if gone[c] then .empty else s.listsOf c) }

/-- R6 step 1, R118: a removed coach leaves every live notice. -/
def removeCoachNotices (c : Fin 16) (s : State) : State :=
  let gone := CoachSet.none.insert c
  settleEntries (freeEmptyTargets (emptyLists gone
    (mapEntries (fun l => { l.leave gone with target := l.target.withoutCoaches gone }) s)))

/-! ## Stop notice requests (R105) -/

/-- The setting "auto stop notices enable" for a kind (R50). -/
def Settings.autoStop (t : Settings) : NoticeKind → Bool
  | .nextStop => t.autoNextStop
  | .approaching => t.autoApproaching
  | .atStop => t.autoAtStop
  | _ => false

/-- R105: the route unit asks for a stop notice edition for a portion. -/
def stopNotice (p : Portion) (kind : NoticeKind) (stop : Nat) (s : State) : State :=
  match s.route.stops.find? (fun x => x.id == stop) with
  | none => s
  | some x =>
    let e := p.stopEntry
    let old := (s.entry e).live.map (·.text)
    if !s.settings.autoStop kind then freeEntry e true s
    else if old ≠ some x.name ∧ addRefused s x.name ≠ none then freeEntry e true s
    else
      let fresh : LiveNotice :=
        { kind := kind, priority := Config.stopNoticePriority, target := .portions (.single p), text := x.name,
          subject := some stop, lifetime := none, edition := 0, start := 0, state := .partly,
          delivery := CoachSet.none, receipted := CoachSet.none,
          holders := ((s.entry e).live.map (·.holders)).getD CoachSet.none }
      startEdition e (moveRef old (some x.name) (s.updEntry e (fun n => { n with live := some fresh })))

/-! ## Receipts (R111) -/

/-- The earliest-sent item that names an entry and an edition leaves an in-flight list. -/
def removeFlight (e : Fin 24) (edition : Nat) : List Flight → List Flight
  | [] => []
  | f :: fs => if f.entry = e ∧ f.edition = edition then fs else f :: removeFlight e edition fs

/-- R111: a notice receipt from a coach. -/
def takeReceipt (c : Fin 16) (entry edition : Nat) (s : State) : State :=
  match entryNo entry with
  | none => s
  | some e =>
    let s := s.updLists c (fun l => { l with inFlight := removeFlight e edition l.inFlight })
    let receipted := s.updEntry e (NoticeEntry.mapLive (fun l => { l with receipted := l.receipted.insert c }))
    match (s.entry e).live with
    | none => s
    | some l =>
      if l.edition ≠ edition then s
      else
        match l.state with
        | .delivering _ => if l.delivery[c] then settleEntry e receipted else s
        | .delivered | .partly => if inTarget s l.target c then receipted else s

/-! ## Order among editions (R95, R108, R138) -/

/-- Whether one live notice goes before another: higher priority first, then the edition that began first by the
ticks passed since (R190), then the lower entry number. -/
def goesBefore (now : BitVec 32) (e : Fin 24) (l : LiveNotice) (e' : Fin 24) (l' : LiveNotice) : Bool :=
  l'.priority < l.priority ||
    (l.priority == l'.priority &&
      ((now - l'.start).toNat < (now - l.start).toNat || ((now - l.start) == (now - l'.start) && e < e')))

/-- The live entries that satisfy a test, in that order. -/
def orderedNotices (s : State) (test : Fin 24 → LiveNotice → Bool) : List (Fin 24 × LiveNotice) :=
  sortBy (fun x y => goesBefore s.time.tickCount x.1 x.2 y.1 y.2)
    ((all24.filterMap (fun e => (s.entry e).live.map (fun l => (e, l)))).filter (fun x => test x.1 x.2))

end Sys2Proof.Machine
end

