-- ==== Sys2Proof/Machine/Ops.lean ====
section
/-! DEFINITION. Operations that several commands share: positions in the stop table (R27, R30), retirement and the
sweep (R56, R72), levels (R160), binding and unbinding of coach ports (R147 to R150), stabling (R191 to R193),
arrivals, departures and heading corrections (R40, R43), and detaching completion (R17 to R21). -/

namespace Sys2Proof.Machine

/-! ## The stop table (R25, R27, R30) -/

def findStop (stops : List Stop) (id : Nat) : Option Stop := stops.find? (fun x => x.id == id)

/-- The place of a stop in the table, counted from 0. -/
def placeOf (stops : List Stop) (id : Nat) : Option Nat := stops.findIdx? (fun x => x.id == id)

/-- R27: stop x lies before stop y. -/
def liesBefore (stops : List Stop) (x y : Nat) : Bool :=
  match placeOf stops x, placeOf stops y with
  | some i, some j => i < j
  | _, _ => false

/-- R27: stop x lies at or before stop y. -/
def atOrBefore (stops : List Stop) (x y : Nat) : Bool :=
  match placeOf stops x, placeOf stops y with
  | some i, some j => i ≤ j
  | _, _ => false

/-- R27: the served sequence of a portion. -/
def servedSequence (stops : List Stop) (p : Portion) : List Stop := stops.filter (fun x => x.portions.mem p)

/-- R30: the next stop of a portion after a stop. -/
def nextStop (stops : List Stop) (p : Portion) (after : Nat) : Option Nat :=
  (((stops.dropWhile (fun x => x.id != after)).drop 1).find? (fun x => x.portions.mem p && !x.cancelled)).map (·.id)

/-- Whether a portion has no last-arrived stop, or a stop lies after it. -/
def ahead (s : State) (p : Portion) (stop : Nat) : Bool :=
  match (s.portion p).lastArrived with
  | none => true
  | some x => liesBefore s.route.stops x stop

/-! ## Reservations (R53, R54, R56) -/

/-- Whether a coach's portion is DETACHING. -/
def coachLeaving (s : State) (c : Fin 16) : Bool :=
  (s.portionOf c).any (fun p => (s.portion p).state == .detaching)

def State.findReservation (s : State) (handle : Nat) : Option Reservation :=
  s.store.reservations.find? (fun r => r.handle == handle)

/-- The position of a reservation's board stop, which orders a chain (R53). -/
def boardPlace (s : State) (r : Reservation) : Nat := (placeOf s.route.stops r.board).getD 0

/-- R53: the chain of a seat, in the order of the board stops. -/
def seatChain (s : State) (c : Fin 16) (seat : Nat) : List Reservation :=
  sortBy (fun r q => boardPlace s r < boardPlace s q)
    (s.store.reservations.filter (fun r => r.coach == c && r.seat == seat))

/-- R53: whether two stretches on one seat overlap: each boards before the other alights. -/
def overlap (stops : List Stop) (board alight board' alight' : Nat) : Bool :=
  liesBefore stops board alight' && liesBefore stops board' alight

/-- R54: the status a reservation is given, by the last-arrived stop of its coach's portion. -/
def statusFor (s : State) (p : Portion) (board : Nat) : ResStatus :=
  match (s.portion p).lastArrived with
  | none => .upcoming
  | some x => if atOrBefore s.route.stops board x then .active else .upcoming

/-- R56: retire a reservation. The seat generation is advanced by the caller, once for each coach (R57). -/
def retire (r : Reservation) (s : State) : State :=
  releaseOpt r.label (returnBlock
    { s with store.reservations := s.store.reservations.filter (fun q => q.handle ≠ r.handle) })

/-- Retire every reservation of a list. -/
def retireAll (rs : List Reservation) (s : State) : State := rs.foldl (fun s r => retire r s) s

/-- Retire the reservations that satisfy a test, and advance the seat generation of each coach that lost one, once
(R57). -/
def retireWhere (test : Reservation → Bool) (s : State) : State :=
  let gone := s.store.reservations.filter test
  advanceSeats (all16.filter (fun c => gone.any (fun r => r.coach == c))) (retireAll gone s)

/-- Whether a reservation is one of a portion's. -/
def runsIn (s : State) (p : Portion) (r : Reservation) : Bool := s.portionOf r.coach == some p

/-- R72: whether a sweep of a portion at a stop ends a reservation. -/
def sweepEnds (s : State) (p : Portion) (stop : Nat) (r : Reservation) : Bool :=
  runsIn s p r && atOrBefore s.route.stops r.alight stop

/-- R72: the status a sweep at a stop gives. -/
def sweepStatus (stops : List Stop) (stop : Nat) (r : Reservation) : ResStatus :=
  if atOrBefore stops r.board stop then .active else .upcoming

/-- R72: the coaches whose reservations a sweep changes. -/
def sweepTouched (s : State) (p : Portion) (stop : Nat) : List (Fin 16) :=
  all16.filter (fun c => s.store.reservations.any (fun r => r.coach == c && runsIn s p r &&
    (sweepEnds s p stop r || sweepStatus s.route.stops stop r != r.status)))

/-- R72: the remaining reservations of a portion get their statuses. -/
def writeStatuses (p : Portion) (stop : Nat) (s : State) : State :=
  { s with store.reservations := s.store.reservations.map (fun r =>
      if runsIn s p r then { r with status := sweepStatus s.route.stops stop r } else r) }

/-- R72: the sweep of a portion at a stop. -/
def sweep (p : Portion) (stop : Nat) (s : State) : State :=
  advanceSeats (sweepTouched s p stop)
    (writeStatuses p stop (retireAll (s.store.reservations.filter (sweepEnds s p stop)) s))

/-- R76: a coach's reservations are given their statuses afresh; the seat generation advances once if any changed. -/
def restatus (c : Fin 16) (p : Portion) (s : State) : State :=
  let given := fun (r : Reservation) => if r.coach = c then { r with status := statusFor s p r.board } else r
  let t := { s with store.reservations := s.store.reservations.map given }
  if s.store.reservations.any (fun r => given r != r) then advanceSeat c t else t

/-! ## Coach levels (R160, R161) -/

/-- R161: LEVEL is made pending on the port BOUND to a coach, and its flag is set. -/
def levelPending (c : Fin 16) (s : State) : State :=
  match s.boundPort c with
  | none => s
  | some p => s.updPort p (fun q => { q with level := true, levelAwaited := true })

/-- R160, steps 1 to 5, for one coach, but for the completion check of R116; an equal level is no change. A coach that is
not BOUND and goes DARK leaves the sets of the live notices too (DEDUCED, log 35, unsafe). -/
def changeLevel (level : Level) (s : State) (c : Fin 16) : State :=
  match s.coach c with
  | none => s
  | some k =>
    if k.level = level then s
    else
      let s := levelPending c (s.updCoach c (fun k => { k with level := level }))
      if level = .dark then darkCoach c s
      else if k.level = .dark then
        match s.boundPort c with
        | none => s
        | some p => (reachCoach c s).updPort p (fun q => { q with refresh := ⟨true, true, true⟩ })
      else s

/-- Whether a coach that was not DARK is DARK now. -/
def wentDark (s t : State) (c : Fin 16) : Bool :=
  (s.coach c).any (fun k => k.level != .dark) && (t.coach c).any (fun k => k.level == .dark)

/-- R116, R160, R191: the level changes that lead from s to t are made together, so the entries are judged by R112 once,
behind all of them, where a coach has gone DARK (DEDUCED, log 28, safe). -/
def settleLevels (s t : State) : State := if all16.any (wentDark s t) then settleEntries t else t

/-- R160: the level of some coaches is set, together. -/
def applyLevels (level : Level) (cs : List (Fin 16)) (s : State) : State :=
  settleLevels s (cs.foldl (changeLevel level) s)

/-! ## Stabling (R191 to R193) -/

/-- R192: stabling ends: the mode becomes STABLED, the deadline is removed, STABLED_REACHED is recorded. -/
def reachStabled (s : State) : State :=
  record .stabledReached { s with time.mode := .stabled, time.stablingDeadline := none }

/-- R192: no BOUND port has its level-receipt-awaited flag set. -/
def levelsReceipted (s : State) : Bool :=
  all16.all (fun p => !((s.port p).state == .bound && (s.port p).levelAwaited))

/-- R192: judge whether stabling is complete. -/
def judgeStabling (s : State) : State :=
  if s.time.mode = .stabling ∧ levelsReceipted s = true then reachStabled s else s

/-- R191 step 1 for one coach, but for the completion check of R116. -/
def darkenForStabling (s : State) (c : Fin 16) : State :=
  match s.coach c with
  | none => s
  | some k =>
    let s := s.updCoach c (fun k => { k with savedLevel := some k.level })
    if k.level = .dark then levelPending c s else changeLevel .dark s c

def setMode (mode : Mode) (s : State) : State := { s with time.mode := mode }
def setStablingDeadline (deadline : Option Nat) (s : State) : State := { s with time.stablingDeadline := deadline }

/-- R191: the mode moves from SERVICE to STABLING; in the other modes nothing changes. -/
def enterStabling (s : State) : State :=
  if s.time.mode = .service then
    judgeStabling (setStablingDeadline (some s.settings.stablingDeadline)
      (settleLevels s (all16.foldl darkenForStabling (setMode .stabling s))))
  else s

/-- R193 step 2 for one coach, but for the completion check of R116. -/
def restoreLevel (s : State) (c : Fin 16) : State :=
  match (s.coach c).bind (·.savedLevel) with
  | none => s
  | some level => (changeLevel level s c).updCoach c (fun k => { k with savedLevel := none })

/-- R193: the return to SERVICE; in SERVICE nothing changes. -/
def returnToService (s : State) : State :=
  if s.time.mode = .service then s
  else setMode .service (settleLevels s (all16.foldl restoreLevel (setStablingDeadline none s)))

/-! ## Binding (R146 to R150) -/

/-- What a port's label makes of it against the entries as they stand (R146's table). -/
inductive Binding where
  | unbound
  | mismatched
  | bound (c : Fin 16)
  deriving DecidableEq, Repr

def bindingFor (s : State) (p : Fin 16) (label : List Byte) : Binding :=
  match s.namedBy p with
  | none => .unbound
  | some c => if (s.coach c).any (fun k => k.label == label) then .bound c else .mismatched

/-- R147 steps 2, 3 and 5, which a CDC restart shares (R149): WELCOME, LEVEL in STABLING, RELEASE while the portion is
DETACHING, and the live notices if the coach is not DARK. -/
def welcomeCoach (p c : Fin 16) (s : State) : State :=
  let stabling := s.time.mode == .stabling
  let leaving := (s.portionOf c).any (fun q => (s.portion q).state == .detaching)
  let s := s.updPort p (fun q => { q with
    welcome := true, level := stabling, levelAwaited := stabling,
    release := q.release || leaving, releaseAwaited := q.releaseAwaited || leaving })
  if (s.coach c).any (fun k => k.level != .dark) then reachCoach c s else s

/-- R147: a port becomes BOUND to a coach. -/
def bindPort (p c : Fin 16) (s : State) : State :=
  let s := s.updPort p (fun q => { q with state := .bound, bound := some c, cursor := 1 })
  welcomeCoach p c (record (.coachJoined c) (s.updCoach c (fun k => { k with link := .online })))

/-- R150: a BOUND port's coach loses its link service; the port's new state is the caller's. The UNBOUND answers of several
WAITING queries are made in the order of their arrival (DESIGN CHOICE, log 36, safe). -/
def leaveBound (p : Fin 16) (s : State) : State :=
  match (s.port p).bound with
  | none => s
  | some c =>
    let s := s.updPort p (fun q => { q with
      bound := none, continuation := none, refresh := .clear, level := false, release := false,
      levelAwaited := false, releaseAwaited := false, waiting := [],
      outbox := q.outbox.filter (·.refusal) ++ q.waiting.map (fun w => ⟨w.tag, refuse .unbound, false⟩) })
    (unreachCoach c s).updCoach c (fun k => { k with link := .expected })

/-- R146, R150: a port that is not DOWN takes the outcome for its label; one that was BOUND and is not to stay BOUND to
its coach leaves BOUND first. -/
def takeBinding (p : Fin 16) (out : Binding) (s : State) : State :=
  let s := if (s.port p).state = .bound then leaveBound p s else s
  match out with
  | .unbound => s.updPort p (fun q => { q with state := .unbound, welcome := true })
  | .mismatched =>
    record (.greetMismatch p) (s.updPort p (fun q => { q with state := .mismatched, welcome := true }))
  | .bound c => bindPort p c s

/-- Whether an outcome is a port's present state with the same bound coach (R150). -/
def Port.has (q : Port) : Binding → Bool
  | .unbound => q.state == .unbound
  | .mismatched => q.state == .mismatched
  | .bound c => q.state == .bound && q.bound == some c

/-- R150: re-evaluate a port. -/
def reevaluate (p : Fin 16) (s : State) : State :=
  match (s.port p).state, (s.port p).greeted with
  | .down, _ | .greeting, _ | _, none => s
  | _, some label =>
    let out := bindingFor s p label
    if (s.port p).has out then s else takeBinding p out s

def reevaluateOpt (p : Option (Fin 16)) (s : State) : State :=
  match p with
  | none => s
  | some p => reevaluate p s

/-! ## Detaching completion (R17 to R21) -/

/-- The stop's portion set is the portion alone. -/
def servedAlone (s : State) (p : Portion) (stop : Nat) : Bool :=
  (findStop s.route.stops stop).any (fun x => x.portions == .single p)

/-- R18 step 2 for one general entry, the coaches of p given as `gone`. -/
def detachEntry (p : Portion) (gone : CoachSet) (s : State) (e : Fin 24) : State :=
  match (s.entry e).live with
  | none => s
  | some l =>
    let rest := { l.leave gone with target := (l.target.withoutPortion p).withoutCoaches gone }
    let s := s.updEntry e (fun n => { n with live := some rest })
    if rest.target.isEmpty then freeEntry e false s
    else if rest.subject.any (servedAlone s p) then freeEntry e true s
    else settleEntry e s

/-- The stops without a portion. -/
def stopsWithout (p : Portion) (stops : List Stop) : List Stop :=
  stops.map (fun x => { x with portions := x.portions.without p })

def setStops (stops : List Stop) (s : State) : State := { s with route.stops := stops }

/-- Release the name references of some stops. -/
def releaseNames (stops : List Stop) (s : State) : State := stops.foldl (fun s x => releaseRef x.name s) s

/-- R19 step 4: p leaves every stop, and the stops it leaves empty are removed. -/
def detachStops (p : Portion) (s : State) : State :=
  let left := stopsWithout p s.route.stops
  releaseNames (left.filter (fun x => x.portions.isEmpty)) (setStops (left.filter (fun x => !x.portions.isEmpty)) s)

/-- R20 step 5 for the port of a coach of p: what is in flight or pending on it goes, and a BOUND or MISMATCHED port
becomes UNBOUND with no WELCOME. -/
def Port.released (q : Port) : Port :=
  { q with
    state := if q.state = .bound ∨ q.state = .mismatched then .unbound else q.state,
    bound := none, waiting := [], outbox := [], continuation := none, refresh := .clear,
    welcome := false, level := false, release := false, levelAwaited := false, releaseAwaited := false }

/-- R20 step 5: the entries of the coaches of p become VACANT, and the ports they named are left. -/
def clearCoaches (gone : CoachSet) (named : List (Fin 16)) (s : State) : State :=
  { s with
    formation.coaches := tabulate (fun c => if gone[c] then none else s.coach c),
    ports := tabulate (fun q => if q ∈ named then (s.port q).released else s.port q) }

/-- R17: detaching of p completes, normally or forced, through the eight steps of R18 to R21. -/
def completeDetach (p : Portion) (forced : Bool) (s : State) : State :=
  let coaches := s.coachesOf p
  let gone : CoachSet := tabulate (fun c => s.portionOf c == some p)
  let named := coaches.filterMap (fun c => (s.coach c).bind (·.port))
  -- step 1: reservations
  let s := retireWhere (fun r => gone[r.coach]) s
  -- step 2: general notices
  let s := emptyLists gone ((all24.filter (fun e => e.val < 21)).foldl (detachEntry p gone) s)
  -- step 3: the stop notice entry
  let s := freeEntry p.stopEntry false s
  -- step 4: stops
  let s := detachStops p s
  -- step 5: coach entries and their ports
  let s := clearCoaches gone named s
  -- step 6: the portion record
  let s := s.updPortion p (fun _ => .vacant)
  -- step 7: attention
  let s := record (if forced then .detachForced p else .detachDone p) s
  -- step 8: generations
  let s := advanceRoute (advanceFormation s)
  -- R192: bindings have ended, so stabling is judged
  judgeStabling s

/-- Whether a coach of p is BOUND with its release-receipt-awaited flag set (R15). -/
def releaseAwaited (s : State) (p : Portion) : Bool :=
  (s.coachesOf p).any (fun c => (s.boundPort c).any (fun q => (s.port q).releaseAwaited))

/-- R15: after an event at the ports, detaching completes normally once no receipt is awaited. -/
def settleDetach (s : State) : State :=
  match s.detachingPortion with
  | none => s
  | some p => if releaseAwaited s p then s else completeDetach p false s

/-- R15, R192: what an event that may end a binding or clear a flag leads to. -/
def settlePorts (s : State) : State := judgeStabling (settleDetach s)

/-! ## Progress (R40, R43 to R48) -/

/-- R43: an arrival of p at a stop. -/
def arriveAt (p : Portion) (stop : Nat) (s : State) : State :=
  let s := s.updPortion p (fun r => { r with current := some stop, lastArrived := some stop })
  let s := record (.arrived p) (stopNotice p .atStop stop (sweep p stop s))
  let phase := if nextStop s.route.stops p stop = none then Phase.terminated else .atPlatform
  advanceRoute (s.updPortion p (fun r => { r with phase := some phase }))

/-- R46: p becomes APPROACHING its current stop. -/
def approachStop (p : Portion) (s : State) : State :=
  let s := s.updPortion p (fun r => { r with phase := some .approaching })
  advanceRoute (match (s.portion p).current with
    | none => s
    | some stop => stopNotice p .approaching stop s)

/-- R48: p departs toward a stop. -/
def departFor (p : Portion) (next : Nat) (s : State) : State :=
  let s := s.updPortion p (fun r => { r with phase := some .enRoute, current := some next })
  advanceRoute (stopNotice p .nextStop next (record (.departed p) s))

/-- R47's table: the released side is not included in the stop's door side. -/
def sideMismatch : Option Side → Side → Bool
  | none, _ => false
  | some .both, _ => false
  | some .left, released => released != .left
  | some .right, released => released != .right

/-- R47: the released side is compared with the door side of p's current stop. -/
def compareSide (p : Portion) (released : Side) (s : State) : State :=
  let stop := (s.portion p).current.bind (findStop s.route.stops)
  if stop.any (fun x => sideMismatch x.side released) then record (.doorSideMismatch p) s else s

/-- R45: whether an ARRIVE fits p's phase. -/
def arriveFits (s : State) (p : Portion) : Bool :=
  (s.portion p).phase == some .approaching ||
    ((s.portion p).phase == some .enRoute && !s.settings.arrivalNeedsApproach)

/-- R48: the stop p departs for, if a DEPART fits. -/
def departStop (s : State) (p : Portion) : Option Nat :=
  if (s.portion p).phase = some .atPlatform ∨ (s.portion p).phase = some .doorsReleased then
    (s.portion p).current.bind (nextStop s.route.stops p)
  else none

/-- R45, applied: none where the phase does not fit. -/
def tryArrive (p : Portion) (s : State) : Option State :=
  if arriveFits s p then (s.portion p).current.map (fun stop => arriveAt p stop s) else none

/-- R46, applied. -/
def tryApproach (p : Portion) (s : State) : Option State :=
  if (s.portion p).phase = some .enRoute then some (approachStop p s) else none

/-- R48, applied. -/
def tryDepart (p : Portion) (s : State) : Option State :=
  (departStop s p).map (fun next => departFor p next s)

/-- R47, applied. -/
def tryRelease (p : Portion) (released : Side) (s : State) : Option State :=
  match (s.portion p).phase with
  | some .atPlatform =>
    some (compareSide p released (advanceRoute (s.updPortion p (fun r => { r with phase := some .doorsReleased }))))
  | some .doorsReleased | some .terminated => some (compareSide p released s)
  | _ => none

/-- R40 for one portion. -/
def correctHeading (s : State) (p : Portion) : State :=
  let r := s.portion p
  if r.state = .attached ∧ (r.phase = some .enRoute ∨ r.phase = some .approaching) then
    match r.lastArrived.bind (nextStop s.route.stops p) with
    | none => s
    | some next =>
      if r.current = some next then s
      else stopNotice p .nextStop next (s.updPortion p (fun r => { r with phase := some .enRoute, current := some next }))
  else s

/-- R40: the heading correction after a stop change. -/
def correctHeadings (s : State) : State := Portion.all.foldl correctHeading s

end Sys2Proof.Machine
end

