-- ==== Sys2Proof/Machine/Arbiter.lean ====
section
/-! DEFINITION. The access arbiter (R123 to R126) and what surrounds a granted order or query (R125, R178, R179). -/

namespace Sys2Proof.Machine

/-- What a grant gives the record path to. -/
inductive Grant where
  | crew (order : Order)
  | coach (port : Fin 16) (query : Query)
  deriving DecidableEq, Repr

/-- The oldest TAKEN order, which the crew port offers (R123). -/
def offeredOrder (s : State) : Option Order :=
  (s.crew.slots.find? (fun k => k.state == .taken)).map (·.order)

/-- The oldest query that a coach port offers (R123). -/
def offeredQuery (s : State) (p : Fin 16) : Option Query := (s.port p).waiting.head?

/-- The coach ports in turn from the one after the grant pointer (R124). -/
def turn (pointer : Fin 16) : List (Fin 16) := all16.map (fun k => pointer + 1 + k)

/-- The first port in turn that waits. -/
def nextPort (s : State) : Option (Fin 16) :=
  (turn s.arbiter.pointer).find? (fun p => (offeredQuery s p).isSome)

/-- R124: to whom the free record path is granted next. -/
def nextGrant (s : State) : Option Grant :=
  if !s.running then none
  else
    match offeredOrder s, nextPort s with
    | some o, none => some (.crew o)
    | some o, some p =>
      if s.arbiter.burst < s.settings.crewBurst then some (.crew o) else (offeredQuery s p).map (.coach p)
    | none, some p => (offeredQuery s p).map (.coach p)
    | none, none => none

/-- Change the state of the oldest slot that is in a given state. -/
def moveSlot (old new : SlotState) : List CrewSlot → List CrewSlot
  | [] => []
  | k :: ks => if k.state = old then { k with state := new } :: ks else k :: moveSlot old new ks

/-- R124, R125: the crew port is granted: the burst count rises, held at the weight, and the slot is EXECUTING. A
count that a SET has left above the weight stays as it is until a coach grant clears it: the spec does not say (DESIGN
CHOICE, log 30, safe). -/
def grantCrew (s : State) : State :=
  { s with
    arbiter.burst := if s.arbiter.burst < s.settings.crewBurst then s.arbiter.burst + 1 else s.arbiter.burst,
    crew.slots := moveSlot .taken .executing s.crew.slots }

/-- R125: the answer is made and joins the answer queue; the slot becomes ANSWER_READY. -/
def answerCrew (r : Reply) (s : State) : State :=
  { s with crew.slots := moveSlot .executing (.answerReady r) s.crew.slots }

/-- R124: a coach port is granted, and its oldest query leaves the query slots. -/
def grantPort (p : Fin 16) (s : State) : State :=
  { s with arbiter := ⟨p, 0⟩ }.updPort p (fun q => { q with waiting := q.waiting.drop 1 })

/-- R153: the query becomes ANSWERED, its answer waiting to be sent. -/
def answerPort (p : Fin 16) (tag : Nat) (r : Reply) (s : State) : State :=
  s.updPort p (fun q => { q with outbox := q.outbox ++ [⟨tag, r, false⟩] })

/-- What an owner does with an order's parameters. -/
abbrev Carry := List RawField → State → State × Reply

/-- A granted order is carried out whole and answered; the notice generation advances once for it if R96 counts
anything it did. -/
def carryOrder (carry : Carry) (o : Order) (s : State) : State :=
  let granted := grantCrew s
  let t := withNoticeNews (fun s => (carry o.fields s).1) granted
  answerCrew (carry o.fields granted).2 t

/-- The step of an order: the arbiter grants the crew port an order of a kind. Where the next grant is another, the
step is not offered and nothing changes (log 1). -/
def orderStep (isKind : Nat → Bool) (carry : Carry) (s : State) : State :=
  match nextGrant s with
  | some (.crew o) => if isKind o.kind then carryOrder carry o s else s
  | _ => s

end Sys2Proof.Machine
end

