-- ==== Sys2Proof/Machine/Formation.lean ====
section
/-! DEFINITION. The orders of the formation table (R3 to R14, R159) and the coupler events (R16). -/

namespace Sys2Proof.Machine

/-- A SET_COACH with every parameter in its range (R3). -/
structure CoachOrder where
  coach : Fin 16
  label : List Byte
  port : Option (Fin 16)
  portion : Portion
  position : Nat
  seatCount : Nat
  hidden : Option Bool
  wakeAllowed : Option Bool
  deriving DecidableEq, Repr

/-- An optional parameter read by a function: absent, read, or out of range. -/
def optRead {α : Type} (n : Option Nat) (read : Nat → Option α) : Option (Option α) :=
  match n with
  | none => some none
  | some n => (read n).map some

/-- The parameters of SET_COACH (R3). A character of the label is one byte (DESIGN CHOICE, log 38, unsafe). -/
def coachParams : List Param :=
  [need 1 1, ⟨2, 1, 3, true⟩, may 3 1, need 4 1, need 5 1, need 6 1, may 7 1, may 8 1]

/-- R3 check 2. -/
def readCoachOrder (fs : List RawField) : Option CoachOrder :=
  match coachNo (num fs 1), optRead (optNum fs 3) portNo, Portion.ofCode (num fs 4), optRead (optNum fs 7) flagOf,
    optRead (optNum fs 8) flagOf with
  | some c, some port, some p, some hidden, some wake =>
    if within 1 16 (num fs 5) && within 0 120 (num fs 6) then
      some ⟨c, (bytesOf fs 2).getD [], port, p, num fs 5, num fs 6, hidden, wake⟩
    else none
  | _, _, _, _, _ => none

/-- Whether a defined entry other than one satisfies a test. -/
def otherCoach (s : State) (c : Fin 16) (test : Coach → Bool) : Bool :=
  all16.any (fun d => d != c && (s.coach d).any test)

/-- The reservations of a coach. -/
def coachReservations (s : State) (c : Fin 16) : List Reservation := s.store.reservations.filter (fun r => r.coach == c)

/-- R3, checks 3 to 8. -/
def coachChecks (s : State) (o : CoachOrder) : List (Bool × StatusCode) :=
  let moved := (s.portionOf o.coach).any (· != o.portion)
  let rs := coachReservations s o.coach
  let serves := fun (stop : Nat) => (findStop s.route.stops stop).any (fun x => x.portions.mem o.portion)
  [ ((s.portion o.portion).state == .vacant, .unknown),
    ((s.portion o.portion).state == .detaching || coachLeaving s o.coach, .detaching),
    (otherCoach s o.coach (fun k => (o.port.isSome && k.port == o.port) || k.position == o.position), .conflict),
    ((s.coach o.coach).isSome && rs.any (fun r => o.seatCount < r.seat), .inUse),
    (moved && rs.any (fun r => !serves r.board || !serves r.alight), .conflict),
    (moved && rs.any (fun r => !ahead s o.portion r.alight), .past) ]

/-- The entry that an order gives a VACANT coach number (R4). -/
def CoachOrder.define (o : CoachOrder) (dark : Bool) : Coach :=
  { label := o.label, port := o.port, portion := o.portion, position := o.position, seatCount := o.seatCount,
    hidden := o.hidden.getD false, wakeAllowed := o.wakeAllowed.getD true,
    level := if dark then .dark else .full, savedLevel := if dark then some .full else none, link := .expected }

/-- R4: a VACANT entry is defined. -/
def defineCoach (o : CoachOrder) (s : State) : State :=
  reevaluateOpt o.port (s.setCoach o.coach (some (o.define (s.time.mode != .service))))

/-- R5: a coach that has changed portion takes its statuses, its notices and its port along. -/
def changePortion (c : Fin 16) (old new : Portion) (s : State) : State :=
  let s := movePortionNotices c old new (restatus c new s)
  match s.boundPort c with
  | none => s
  | some p => s.updPort p (fun q => { q with continuation := none, refresh := ⟨true, true, true⟩ })

/-- Whether an order changes a coach's port or label (R5). -/
def CoachOrder.relinks (o : CoachOrder) (k : Coach) : Bool := o.port != k.port || o.label != k.label

/-- The entry that an order gives a defined coach (R5). -/
def CoachOrder.rewrite (o : CoachOrder) (k : Coach) : Coach :=
  { k with
    label := o.label, port := o.port, portion := o.portion, position := o.position, seatCount := o.seatCount,
    hidden := o.hidden.getD k.hidden, wakeAllowed := o.wakeAllowed.getD k.wakeAllowed,
    link := if o.relinks k ∧ k.link = .lost then .expected else k.link }

/-- R5: the ports that an entry names no more and now names are re-evaluated. -/
def reevaluatePorts (old new : Option (Fin 16)) (s : State) : State :=
  reevaluateOpt new (if new = old then s else reevaluateOpt old s)

/-- R5: a defined entry is rewritten. -/
def rewriteCoach (o : CoachOrder) (k : Coach) (s : State) : State :=
  let s := s.setCoach o.coach (some (o.rewrite k))
  let s := if o.relinks k then reevaluatePorts k.port o.port s else s
  if o.portion = k.portion then s else changePortion o.coach k.portion o.portion s

/-- SET_COACH taken (R4, R5): the formation generation advances once, and stabling is judged (R192). -/
def takeCoachOrder (o : CoachOrder) (s : State) : State :=
  judgeStabling (advanceFormation (match s.coach o.coach with
    | none => defineCoach o s
    | some k => rewriteCoach o k s))

/-- SET_COACH (R3). -/
def carrySetCoach : Carry := fun fs s =>
  if !shaped coachParams fs then (s, refuse .malformed)
  else
    match readCoachOrder fs with
    | none => (s, refuse .range)
    | some o => judged (coachChecks s o) s (takeCoachOrder o s, okWith [])

/-- REMOVE_COACH taken (R6). -/
def takeRemoveCoach (c : Fin 16) (s : State) : State :=
  let port := (s.coach c).bind (·.port)
  judgeStabling (advanceFormation (reevaluateOpt port ((removeCoachNotices c s).setCoach c none)))

/-- REMOVE_COACH (R6). -/
def carryRemoveCoach : Carry := fun fs s =>
  if !shaped [need 1 1] fs then (s, refuse .malformed)
  else
    match coachNo (num fs 1) with
    | none => (s, refuse .range)
    | some c =>
      judged
        [ ((s.coach c).isNone, .unknown),
          (coachLeaving s c, .detaching),
          (!(coachReservations s c).isEmpty, .inUse) ] s (takeRemoveCoach c s, okWith [])

/-- ATTACH (R10). -/
def carryAttach : Carry := fun fs s =>
  if !shaped [need 1 1] fs then (s, refuse .malformed)
  else
    match Portion.ofCode (num fs 1) with
    | none => (s, refuse .range)
    | some p =>
      judged [((s.portion p).state != .vacant, .conflict)] s
        (advanceFormation (s.updPortion p (fun _ => ⟨.attached, some .noRoute, none, none, none⟩)), okWith [])

/-- R12, checks 2 to 6. -/
def detachChecks (s : State) (p : Portion) : List (Bool × StatusCode) :=
  let r := s.portion p
  [ (s.time.mode == .stabled, .mode),
    (s.detachingPortion.isSome, .detaching),
    (r.state == .vacant, .conflict),
    (!Portion.all.any (fun q => q != p && (s.portion q).state == .attached), .conflict),
    (!((r.phase == some .atPlatform || r.phase == some .doorsReleased) &&
        (r.current.bind (findStop s.route.stops)).any (fun x => x.kind == .split)), .phase) ]

/-- R13: DETACH accepted. -/
def acceptDetach (p : Portion) (s : State) : State :=
  let coaches := s.coachesOf p
  let s := s.updPortion p (fun r => { r with state := .detaching, deadline := some s.settings.detachDeadline })
  let s := coaches.foldl (fun s c =>
    match s.boundPort c with
    | none => s
    | some q => s.updPort q (fun q => { q with release := true, releaseAwaited := true })) s
  let s := advanceFormation s
  if releaseAwaited s p then s else completeDetach p false s

/-- DETACH (R12). -/
def carryDetach : Carry := fun fs s =>
  if !shaped [need 1 1] fs then (s, refuse .malformed)
  else
    match Portion.ofCode (num fs 1) with
    | none => (s, refuse .range)
    | some p => judged (detachChecks s p) s (acceptDetach p s, okWith [])

/-- SET_LEVEL (R159). -/
def carrySetLevel : Carry := fun fs s =>
  if !shaped [may 1 1, may 2 1, need 3 1] fs || (optNum fs 1).isSome == (optNum fs 2).isSome then
    (s, refuse .malformed)
  else
    match optRead (optNum fs 1) coachNo, optRead (optNum fs 2) Portion.ofCode, Level.ofCode (num fs 3) with
    | some c, some p, some level =>
      judged
        [ (s.time.mode != .service, .mode),
          (c.any (fun c => (s.coach c).isNone) || p.any (fun p => (s.portion p).state == .vacant), .unknown) ] s
        (applyLevels level (match c, p with
          | some c, _ => [c]
          | none, some p => s.coachesOf p
          | none, none => []) s, okWith [])
    | _, _, _ => (s, refuse .range)

/-- R16: a coupler event for a portion. -/
def takeCoupler (p : Portion) (active : Bool) (s : State) : State :=
  if active then s
  else
    match (s.portion p).state with
    | .vacant => s
    | .attached => record (.unexpectedUncouple p) s
    | .detaching => completeDetach p false s

def couplerOf : CouplerPortion → Portion
  | .b => .b
  | .c => .c

/-! ## The commands: the grant of an order of each kind (R124, R125, R179) -/

/-- SET_COACH (R3 to R5). -/
def execSetCoach (s : State) : Outcome := .next (orderStep (· == 1) carrySetCoach s)

/-- REMOVE_COACH (R6). -/
def execRemoveCoach (s : State) : Outcome := .next (orderStep (· == 2) carryRemoveCoach s)

/-- ATTACH (R10). -/
def execAttach (s : State) : Outcome := .next (orderStep (· == 3) carryAttach s)

/-- DETACH (R12, R13). -/
def execDetach (s : State) : Outcome := .next (orderStep (· == 4) carryDetach s)

/-- SET_LEVEL (R159). -/
def execSetLevel (s : State) : Outcome := .next (orderStep (· == 5) carrySetLevel s)

end Sys2Proof.Machine
end

