-- ==== Sys2Proof/Machine/StopTable.lean ====
section
/-! DEFINITION. The orders of the route unit (R31 to R48) and the progress events of the lines (R42). -/

namespace Sys2Proof.Machine

def stopParams : List Param :=
  [need 1 1, may 2 1, need 3 2, may 4 1, may 5 1, may 6 2, may 7 2, may 8 1, need 9 1, need 10 1]

/-- The portion set that PUT_STOP names. -/
def putSet (fs : List RawField) : PortionSet := .ofCode (num fs 9)

/-- R32 check 1: the shape, a set that is not empty, and a position for an insertion. -/
def putMalformed (s : State) (fs : List RawField) : Bool :=
  !shaped stopParams fs || num fs 9 == 0 ||
    ((findStop s.route.stops (num fs 1)).isNone && (optNum fs 2).isNone)

/-- R32 check 2. A name slot, door side or kind beyond its list is out of range too (R198, DEDUCED, log 13). -/
def putOutOfRange (s : State) (fs : List RawField) : Bool :=
  !within 1 250 (num fs 1) || !within 1 511 (num fs 3) || !optWithin 1 99 (optNum fs 4) ||
    !optWithin 0 2 (optNum fs 5) || !optWithin 0 1439 (optNum fs 6) || !optWithin 0 1439 (optNum fs 7) ||
    !within 0 7 (num fs 9) || !within 0 1 (num fs 10) ||
    ((findStop s.route.stops (num fs 1)).isNone &&
      (!within 1 48 (num fs 2) || s.route.stops.length + 1 < num fs 2))

/-- Whether a portion's last-arrived stop, if it has one, leaves a place in the table behind it (R32 check 8). -/
def placeAhead (s : State) (p : Portion) (place : Nat) : Bool :=
  match (s.portion p).lastArrived.bind (placeOf s.route.stops) with
  | none => true
  | some i => i < place

/-- R32 check 9: what depends on a stop's being served by a portion. -/
def stopNeeded (s : State) (q : Portion) (stop : Nat) : Bool :=
  s.store.reservations.any (fun r => s.portionOf r.coach == some q && (r.board == stop || r.alight == stop)) ||
    (s.portion q).current == some stop || (s.portion q).lastArrived == some stop ||
    all24.any (fun e => (s.entry e).live.any (fun l => l.subject == some stop &&
      (l.target.holds q || (s.coachesOf q).any (fun c => inTarget s l.target c))))

/-- R32, checks 3 to 9. -/
def putChecks (s : State) (fs : List RawField) : List (Bool × StatusCode) :=
  let id := num fs 1
  let name := num fs 3
  let set := putSet fs
  let old := findStop s.route.stops id
  let had := fun (p : Portion) => old.any (fun x => x.portions.mem p)
  let place := (placeOf s.route.stops id).getD 0
  [ (Portion.all.any (fun p => set.mem p && (s.portion p).state == .vacant) || (s.findText name).isNone, .unknown),
    ((s.findText name).any (·.retiring) && old.all (fun x => x.name != name), .retiring),
    (Portion.all.any (fun p => set.mem p && (s.portion p).state == .detaching && !had p), .detaching),
    (old.isNone && Config.maxStops ≤ s.route.stops.length, .full),
    (old.isSome && (optNum fs 2).any (· != place + 1), .conflict),
    (Portion.all.any (fun p => set.mem p && !had p &&
      !placeAhead s p (if old.isNone then num fs 2 - 1 else place)), .past),
    (Portion.all.any (fun p => had p && !set.mem p && stopNeeded s p id), .inUse) ]

/-- The stop that PUT_STOP describes, by what the stop with its id was (R31). -/
def putRecord (fs : List RawField) (old : Option Stop) : Stop :=
  { id := num fs 1, name := num fs 3, platform := optNum fs 4, side := (optNum fs 5).bind Side.ofCode,
    arrival := optNum fs 6, departure := optNum fs 7,
    delay := (optNum fs 8).getD ((old.map (·.delay)).getD 0),
    portions := putSet fs, kind := (StopKind.ofCode (num fs 10)).getD .call,
    cancelled := (old.map (·.cancelled)).getD false }

/-- PUT_STOP taken (R33, R34). -/
def takePutStop (fs : List RawField) (s : State) : State × Reply :=
  let old := findStop s.route.stops (num fs 1)
  let new := putRecord fs old
  let place := match placeOf s.route.stops new.id with
    | some i => i
    | none => num fs 2 - 1
  let stops := match old with
    | some _ => s.route.stops.map (fun x => if x.id = new.id then new else x)
    | none => s.route.stops.take place ++ new :: s.route.stops.drop place
  let s := moveRef (old.map (·.name)) (some new.name) (setStops stops s)
  (correctHeadings (advanceRoute s), okWith [⟨1, u8 (place + 1)⟩])

/-- PUT_STOP (R31, R32). -/
def carryPutStop : Carry := fun fs s =>
  if putMalformed s fs then (s, refuse .malformed)
  else if putOutOfRange s fs then (s, refuse .range)
  else judged (putChecks s fs) s (takePutStop fs s)

/-- R35: what names a stop and keeps it in the table. -/
def stopInUse (s : State) (stop : Nat) : Bool :=
  s.store.reservations.any (fun r => r.board == stop || r.alight == stop) ||
    Portion.all.any (fun p => (s.portion p).current == some stop || (s.portion p).lastArrived == some stop) ||
    all24.any (fun e => (s.entry e).live.any (fun l => l.subject == some stop))

/-- A stop leaves the table; those behind it close up. -/
def dropStop (stop : Nat) (s : State) : State :=
  { s with route.stops := s.route.stops.filter (fun x => x.id ≠ stop) }

/-- REMOVE_STOP (R35). -/
def carryRemoveStop : Carry := fun fs s =>
  if !shaped [need 1 1] fs then (s, refuse .malformed)
  else if !within 1 250 (num fs 1) then (s, refuse .range)
  else
    match findStop s.route.stops (num fs 1) with
    | none => (s, refuse .unknown)
    | some x =>
      judged [(stopInUse s x.id, .inUse)] s
        (advanceRoute (releaseRef x.name (dropStop x.id s)), okWith [])

/-- The cancelled flag of a stop is written. -/
def markCancelled (stop : Nat) (flag : Bool) (s : State) : State :=
  { s with route.stops := s.route.stops.map (fun x => if x.id = stop then { x with cancelled := flag } else x) }

/-- The delay of a stop is written. -/
def writeDelay (stop delay : Nat) (s : State) : State :=
  { s with route.stops := s.route.stops.map (fun x => if x.id = stop then { x with delay := delay } else x) }

/-- R36 check 5 for one portion: another stop ahead of it that is not cancelled. -/
def otherStopAhead (s : State) (p : Portion) (stop : Nat) : Bool :=
  (servedSequence s.route.stops p).any (fun x => x.id != stop && !x.cancelled &&
    (s.portion p).lastArrived.any (fun l => liesBefore s.route.stops l x.id))

/-- R36, checks 3 to 5. Check 4 is as R36 has it: a portion that is TERMINATED at the stop refuses nothing, though R49 says
PHASE of an ARRIVE that comes first (DEDUCED, log 40, unsafe). -/
def cancelChecks (s : State) (x : Stop) : List (Bool × StatusCode) :=
  [ (!Portion.all.any (fun p => x.portions.mem p && ahead s p x.id), .past),
    (Portion.all.any (fun p => (s.portion p).current == some x.id &&
      ((s.portion p).phase == some .atPlatform || (s.portion p).phase == some .doorsReleased)), .phase),
    (Portion.all.any (fun p => (s.portion p).current == some x.id &&
      ((s.portion p).phase == some .enRoute || (s.portion p).phase == some .approaching) &&
      !otherStopAhead s p x.id), .phase) ]

/-- CANCEL_STOP (R36, R37). -/
def carryCancelStop : Carry := fun fs s =>
  if !shaped [need 1 1] fs then (s, refuse .malformed)
  else if !within 1 250 (num fs 1) then (s, refuse .range)
  else
    match findStop s.route.stops (num fs 1) with
    | none => (s, refuse .unknown)
    | some x =>
      if x.cancelled then (s, okWith [])
      else judged (cancelChecks s x) s (correctHeadings (advanceRoute (markCancelled x.id true s)), okWith [])

/-- REINSTATE_STOP (R38). -/
def carryReinstateStop : Carry := fun fs s =>
  if !shaped [need 1 1] fs then (s, refuse .malformed)
  else if !within 1 250 (num fs 1) then (s, refuse .range)
  else
    match findStop s.route.stops (num fs 1) with
    | none => (s, refuse .unknown)
    | some x =>
      if x.cancelled then (correctHeadings (advanceRoute (markCancelled x.id false s)), okWith [])
      else (s, okWith [])

/-- SET_DELAY (R39). -/
def carrySetDelay : Carry := fun fs s =>
  if !shaped [need 1 1, need 2 1] fs then (s, refuse .malformed)
  else if !within 1 250 (num fs 1) || !within 0 255 (num fs 2) then (s, refuse .range)
  else
    match findStop s.route.stops (num fs 1) with
    | none => (s, refuse .unknown)
    | some x =>
      (advanceRoute (writeDelay x.id (num fs 2) s), okWith [])

/-! ## Progress orders (R41) -/

/-- R41, checks 2 to 4. -/
def progressChecks (s : State) (p : Portion) : List (Bool × StatusCode) :=
  [ (s.time.mode == .stabled, .mode),
    ((s.portion p).state == .vacant, .unknown),
    ((s.portion p).state == .detaching, .detaching) ]

/-- A progress order: its shape, the checks of R41, then its own. -/
def progressOrder (params : List Param) (own : Portion → List RawField → State → State × Reply) : Carry := fun fs s =>
  if !shaped params fs then (s, refuse .malformed)
  else
    match Portion.ofCode (num fs 1) with
    | none => (s, refuse .range)
    | some p => judged (progressChecks s p) s (own p fs s)

/-- An event applied where the phase fits, and refused PHASE where it does not. -/
def applied (s : State) (event : Option State) : State × Reply :=
  match event with
  | some t => (t, okWith [])
  | none => (s, refuse .phase)

/-- START (R44). -/
def carryStart : Carry := progressOrder [need 1 1, need 2 1] fun p fs s =>
  let stop := findStop s.route.stops (num fs 2)
  judged
    [ (!within 1 250 (num fs 2), .range),
      (stop.isNone, .unknown),
      (stop.any (fun x => !x.portions.mem p || x.cancelled), .notServed) ] s
    (arriveAt p (num fs 2) s, okWith [])

/-- APPROACH (R46). -/
def carryApproach : Carry := progressOrder [need 1 1] fun p _ s => applied s (tryApproach p s)

/-- ARRIVE (R45). -/
def carryArrive : Carry := progressOrder [need 1 1] fun p _ s => applied s (tryArrive p s)

/-- RELEASE_DOORS (R47). -/
def carryReleaseDoors : Carry := progressOrder [need 1 1, need 2 1] fun p fs s =>
  match Side.ofCode (num fs 2) with
  | none => (s, refuse .range)
  | some side => applied s (tryRelease p side s)

/-- DEPART (R48). -/
def carryDepart : Carry := progressOrder [need 1 1] fun p _ s => applied s (tryDepart p s)

/-! ## Progress events of the lines (R42) -/

/-- R42: an event of the lines is offered to each ATTACHED portion, and passed over where it does not fit. In STABLED
mode it is ignored. The notice generation advances once for it (log 14). -/
def offerEvent (event : Portion → State → Option State) (s : State) : State :=
  if s.time.mode = .stabled then s
  else
    withNoticeNews (Portion.all.foldl (fun s p =>
      if (s.portion p).state = .attached then (event p s).getD s else s)) s

/-! ## The commands: the grant of an order of each kind (R124, R125, R179) -/

/-- PUT_STOP (R31 to R34). -/
def execPutStop (s : State) : Outcome := .next (orderStep (· == 6) carryPutStop s)

/-- REMOVE_STOP (R35). -/
def execRemoveStop (s : State) : Outcome := .next (orderStep (· == 7) carryRemoveStop s)

/-- CANCEL_STOP (R36, R37). -/
def execCancelStop (s : State) : Outcome := .next (orderStep (· == 8) carryCancelStop s)

/-- REINSTATE_STOP (R38). -/
def execReinstateStop (s : State) : Outcome := .next (orderStep (· == 9) carryReinstateStop s)

/-- SET_DELAY (R39). -/
def execSetDelay (s : State) : Outcome := .next (orderStep (· == 10) carrySetDelay s)

/-- START (R44). -/
def execStart (s : State) : Outcome := .next (orderStep (· == 11) carryStart s)

/-- APPROACH (R46). -/
def execApproach (s : State) : Outcome := .next (orderStep (· == 12) carryApproach s)

/-- ARRIVE (R45). -/
def execArrive (s : State) : Outcome := .next (orderStep (· == 13) carryArrive s)

/-- RELEASE_DOORS (R47). -/
def execReleaseDoors (s : State) : Outcome := .next (orderStep (· == 14) carryReleaseDoors s)

/-- DEPART (R48). -/
def execDepart (s : State) : Outcome := .next (orderStep (· == 15) carryDepart s)

end Sys2Proof.Machine
end

