-- ==== Sys2Proof/Machine/Lines.lean ====
section
/-! DEFINITION. The line unit: filters, functions, the pattern, and the events it hands over (R164 to R175). -/

namespace Sys2Proof.Machine

/-- R165: whether a line is active. -/
def Line.isActive (l : Line) : Bool := l.function != .unused && l.filtered == l.activeLevel

/-- R168: the functions that an active line carries. -/
def activeFunctions (lines : Vector Line 8) : List LineFunction :=
  LineFunction.all.filter (fun f => all8.any (fun n => lines[n].function == f && lines[n].isActive))

/-- R174: the pattern set is not empty and every line in it is active. -/
def patternComplete (lines : Vector Line 8) : Bool :=
  all8.any (fun n => lines[n].inPattern) && all8.all (fun n => !lines[n].inPattern || lines[n].isActive)

/-- R165, R167, R174: the function states and completeness are worked out anew, without events. -/
def recompute (s : State) : State :=
  { s with
    lines.active := activeFunctions s.lines.lines, lines.complete := patternComplete s.lines.lines }

def State.updLine (s : State) (n : Fin 8) (f : Line → Line) : State :=
  { s with lines.lines := update s.lines.lines n f }

/-- R169: what a function's becoming active is handed over as. -/
def handedOnActive : LineFunction → List HandOver
  | .standstill => [.arrive]
  | .beacon => [.approach]
  | .doorsLeft => [.releaseDoors .left, .door]
  | .doorsRight => [.releaseDoors .right, .door]
  | .couplerB => [.coupler .b true]
  | .couplerC => [.coupler .c true]
  | .unused | .crewKey => []

/-- R169: what a function's becoming inactive is handed over as. -/
def handedOnInactive : LineFunction → List HandOver
  | .standstill => [.depart]
  | .couplerB => [.coupler .b false]
  | .couplerC => [.coupler .c false]
  | .unused | .doorsLeft | .doorsRight | .beacon | .crewKey => []

/-- R168, R169: the events of the functions whose state differs between two lists of active functions. -/
def functionEvents (before after : List LineFunction) : List HandOver :=
  LineFunction.all.flatMap (fun f =>
    if f ∈ after ∧ f ∉ before then handedOnActive f
    else if f ∈ before ∧ f ∉ after then handedOnInactive f
    else [])

/-- R166, R168, R174, R175: a line's filtered level takes a level. -/
def takeFiltered (n : Fin 8) (level : LineLevel) (s : State) : State :=
  let t := recompute (s.updLine n (fun l => { l with filtered := level, wait := none }))
  let triggers := t.lines.complete && !s.lines.complete
  let t := { t with lines.handOvers := t.lines.handOvers ++ functionEvents s.lines.active t.lines.active ++
    (if triggers then [.stabling] else []) }
  if triggers then record .pattern t else t

/-- The filter group of a line (R166). -/
def groupOf (n : Fin 8) : Fin 2 := if n.val < 4 then 0 else 1

/-- The check time of a line's group in ms, 0 for off. -/
def checkTime (s : State) (n : Fin 8) : Nat := checkTimeMs s.lines.checkTimes[groupOf n]

/-- R166: an input departs from the filtered level. -/
def departInput (n : Fin 8) (level : LineLevel) (s : State) : State :=
  if checkTime s n = 0 then takeFiltered n level s
  else s.updLine n (fun l => { l with wait := some (checkTime s n) })

/-- LINE_INPUT_CHANGE (R166); during start-up and while RESET_N is held only the pin changes (R167, R197). -/
def changeInput (n : Fin 8) (level : LineLevel) (s : State) : State :=
  if s.lines.lines[n].input = level then s
  else
    let t := s.updLine n (fun l => { l with input := level })
    if !s.running then t
    else if s.lines.lines[n].filtered = level then t.updLine n (fun l => { l with wait := none })
    else departInput n level t

/-- FILTERED_CHANGE (R166): a wait that runs ends with the input held. Where no wait runs, the step is not offered
(log 1). -/
def endWait (n : Fin 8) (s : State) : State :=
  if s.running ∧ s.lines.lines[n].wait.isSome then takeFiltered n s.lines.lines[n].input s else s

/-- R167: the filtered levels are sampled at the end of start-up, without events. -/
def sampleLines (s : State) : State :=
  recompute { s with lines.lines := tabulate (fun n =>
    { s.lines.lines[n] with filtered := s.lines.lines[n].input, wait := none }) }

/-- An owner takes what was handed over to it; what was not is not offered (log 1, log 18). -/
def takeHandOver (h : HandOver) (effect : State → State) (s : State) : State :=
  if s.running ∧ h ∈ s.lines.handOvers then effect { s with lines.handOvers := s.lines.handOvers.erase h } else s

/-- The side a train line releases. -/
def sideOf : LineSide → Side
  | .left => .left
  | .right => .right

/-- R193: a door event at mode control. -/
def takeDoor (s : State) : State := if s.settings.doorsEndStabling then returnToService s else s

/-! ## The commands -/

def execLineInputChange (line : Fin 8) (level : LineLevel) (s : State) : Outcome := .next (changeInput line level s)

def execFilteredChange (line : Fin 8) (s : State) : Outcome := .next (endWait line s)

/-- LINE_ARRIVE (R42, R170). -/
def execLineArrive (s : State) : Outcome := .next (takeHandOver .arrive (offerEvent tryArrive) s)

/-- LINE_DEPART (R42, R170). -/
def execLineDepart (s : State) : Outcome := .next (takeHandOver .depart (offerEvent tryDepart) s)

/-- LINE_APPROACH (R42, R170). -/
def execLineApproach (s : State) : Outcome := .next (takeHandOver .approach (offerEvent tryApproach) s)

/-- LINE_RELEASE_DOORS (R42, R171). -/
def execLineReleaseDoors (side : LineSide) (s : State) : Outcome :=
  .next (takeHandOver (.releaseDoors side) (offerEvent (fun p => tryRelease p (sideOf side))) s)

/-- COUPLER_EVENT (R16, R172). -/
def execCouplerEvent (portion : CouplerPortion) (active : Bool) (s : State) : Outcome :=
  .next (takeHandOver (.coupler portion active) (withNoticeNews (takeCoupler (couplerOf portion) active)) s)

/-- DOOR_EVENT (R171, R193). -/
def execDoorEvent (s : State) : Outcome := .next (takeHandOver .door takeDoor s)

/-- STABLING_REQUEST (R175, R191). -/
def execStablingRequest (s : State) : Outcome := .next (takeHandOver .stabling enterStabling s)

end Sys2Proof.Machine
end

