-- ==== Sys2Proof/Machine/Modes.lean ====
section
/-! DEFINITION. Time and mode control: power-on, start-up and the warm restart (R195 to R197), ticks and the timers
that run out (R190), the stabling orders and JOURNEY_CLEAR (R191 to R194). -/

namespace Sys2Proof.Machine

/-! ## Power-on and the warm restart -/

/-- POWER_ON (R195): every table in its power-on state; the pins and the queue are the outside's and stay (log 20). -/
def powerUp (strap : StartKind) (s : State) : State :=
  { State.reset with
    ports := tabulate (fun p => .powerOn (s.port p).carrier),
    lines := { State.reset.lines with lines := tabulate (fun n => .powerOn s.lines.lines[n].input) },
    time := { State.reset.time with startKind := strap, resetHeld := s.time.resetHeld },
    pending := s.pending }

/-- RESET_N_ASSERTED (R195, R197). -/
def holdReset (s : State) : State :=
  { s with
    time.resetHeld := true,
    time.startUp := if s.time.startUp = some .powerOn then some .powerOn else some .warm,
    crew.out := [] }

/-- R78: a provisional hold starts again at its full length. -/
def Reservation.reload (ticks : Nat) (r : Reservation) : Reservation :=
  match r.hold with
  | .confirmed => r
  | .provisional _ => { r with hold := .provisional ticks }

/-- R121 for one entry. -/
def LiveNotice.restart (deadline : Nat) (l : LiveNotice) : LiveNotice :=
  match l.state with
  | .delivering _ =>
    { l with state := .delivering deadline, receipted := CoachSet.none, delivery := CoachSet.none,
             holders := CoachSet.none }
  | _ => { l with holders := CoachSet.none }

/-- R23: ONLINE and LOST coaches become EXPECTED. -/
def restartFormation (f : Formation) : Formation :=
  { f with coaches := tabulate (fun c => f.coaches[c].map (fun k => { k with link := .expected })) }

def restartStore (ticks : Nat) (t : Store) : Store := { t with reservations := t.reservations.map (·.reload ticks) }

def restartNotices (deadline : Nat) (n : NoticeUnit) : NoticeUnit :=
  { n with
    entries := tabulate (fun e => n.entries[e].mapLive (·.restart deadline)),
    lists := Vector.replicate 16 .empty }

/-- Waits and hand-overs go; functions, active levels, check times and the pattern set stay (R164, R167, log 18). The filtered
levels and the function states stand as they were until they are sampled at the end of start-up: R164 gives them no value
of their own till then (DESIGN CHOICE, log 39, safe). -/
def restartLines (u : LineUnit) : LineUnit :=
  { u with lines := tabulate (fun n => { u.lines[n] with wait := none }), handOvers := [] }

/-- R197: STABLING completes as STABLED, and the deadline goes. -/
def restartTime (t : TimeControl) : TimeControl :=
  { t with resetHeld := false, startUp := some .warm, stablingDeadline := none,
           mode := if t.mode = .stabling then .stabled else t.mode }

/-- The table of R197. -/
def warmRestart (s : State) : State :=
  { s with
    formation := restartFormation s.formation,
    store := restartStore s.settings.provisionalHold s.store,
    notice := restartNotices s.settings.receiptDeadline s.notice,
    arbiter := .powerOn,
    ports := tabulate (fun p => .powerOn (s.port p).carrier),
    crew := .powerOn,
    lines := restartLines s.lines,
    time := restartTime s.time }

/-- RESET_N_RELEASED (R195, R197): a power-on start-up begins again; otherwise the restart's changes are made. -/
def releaseReset (s : State) : State :=
  if !s.time.resetHeld then s
  else if s.time.startUp = some .powerOn then { s with time.resetHeld := false }
  else warmRestart s

/-! ## The end of start-up (R196) -/

/-- The blocks of record memory among the numbers given, each once. -/
def failedBlocks (numbers : List Nat) : List Nat :=
  numbers.foldl (fun found b => if b < Config.poolBlocks ∧ b ∉ found then found ++ [b] else found) []

/-- R80: the blocks that failed the test are excluded. -/
def excludeBlocks (failed : List Nat) (s : State) : State :=
  { s with memory.excludedBlocks := failed, memory.free := Config.poolBlocks - failed.length }

/-- R144: a port whose carrier is there begins a qualification wait. -/
def beginWaits (s : State) : State :=
  { s with ports := tabulate (fun p =>
      { s.port p with wait := if (s.port p).carrier then some s.settings.lossGrace else none }) }

/-- A DETACHING portion completes as forced (R23, R24); the notice generation is the caller's. -/
def forceDetach (s : State) : State :=
  match s.detachingPortion with
  | none => s
  | some p => completeDetach p true s

/-- R196 step 1, after STARTED: what a warm restart records. -/
def settleWarm (s : State) : State :=
  withNoticeNews forceDetach (if s.time.mode = .stabled then record .stabledReached s else s)

/-- START_UP_END (R196), with the blocks that failed a CHECKED test (R80, log 21). -/
def endStartUp (failed : List Nat) (s : State) : State :=
  match s.time.startUp with
  | none => s
  | some kind =>
    if s.time.resetHeld then s
    else
      let tested := kind == .powerOn && s.time.startKind == .checked
      let s := if tested then excludeBlocks (failedBlocks failed) s else s
      let s := record .started { s with time.startUp := none }
      let s := if kind = .warm then settleWarm s else s
      beginWaits (sampleLines (settlePool s))

/-! ## Timers that run out (R190; log 5)

A timer whose remaining ticks are 1 reaches 0 at the tick to come. -/

/-- R64: whether a hold of a coach runs out. -/
def holdDue (c : Fin 16) (r : Reservation) : Bool :=
  r.coach == c &&
    (match r.hold with
     | .confirmed => false
     | .provisional ticks => ticks ≤ 1)

/-- R64: the holds of a coach that run out. -/
def expireHolds (c : Fin 16) (s : State) : State :=
  if s.store.reservations.any (holdDue c) then record (.provisionalLapsed c) (retireWhere (holdDue c) s) else s

/-- R104: a lifetime that runs out. -/
def expireLifetime (e : Fin 24) (s : State) : State :=
  if (s.entry e).live.any (fun l => l.lifetime.any (· ≤ 1)) then withNoticeNews (freeEntry e true) s else s

/-- Whether a receipt deadline runs out. -/
def NoticeState.due : NoticeState → Bool
  | .delivering ticks => ticks ≤ 1
  | _ => false

/-- R113: a receipt deadline that runs out. -/
def expireReceipt (e : Fin 24) (s : State) : State :=
  if (s.entry e).live.any (fun l => l.state.due) then
    record (.noticePartial e) (s.updEntry e (NoticeEntry.mapLive (fun l => { l with state := .partly })))
  else s

/-- R109: the earliest-sent item of a coach that times out. -/
def timeOutPush (c : Fin 16) (s : State) : State :=
  s.updLists c (fun l => { l with inFlight := l.inFlight.eraseP (fun f => f.ticks ≤ 1) })

/-- R17: a detach deadline that runs out. -/
def expireDetach (s : State) : State :=
  match s.detachingPortion with
  | none => s
  | some p =>
    if (s.portion p).deadline.any (· ≤ 1) then withNoticeNews (completeDetach p true) s else s

/-- R192: a stabling deadline that runs out. -/
def expireStabling (s : State) : State :=
  if s.time.mode = .stabling ∧ s.time.stablingDeadline.any (· ≤ 1) then reachStabled s else s

/-! ## The tick (R190) -/

/-- R62: every hold that goes on has a tick less. -/
def Reservation.age (r : Reservation) : Reservation :=
  match r.hold with
  | .confirmed => r
  | .provisional ticks => { r with hold := .provisional (ticks - 1) }

/-- R104, R113: a tick less for a lifetime and a receipt deadline. -/
def LiveNotice.age (l : LiveNotice) : LiveNotice :=
  { l with
    lifetime := l.lifetime.map (· - 1),
    state := match l.state with
      | .delivering ticks => .delivering (ticks - 1)
      | other => other }

/-- R109: the items that time out go, the others have a tick less. -/
def CoachLists.age (l : CoachLists) : CoachLists :=
  { l with inFlight := (l.inFlight.filter (fun f => 1 < f.ticks)).map (fun f => { f with ticks := f.ticks - 1 }) }

def ageHolds (s : State) : State :=
  { s with store.reservations := s.store.reservations.map Reservation.age }

def ageNotices (s : State) : State :=
  { s with
    notice.entries := tabulate (fun e => (s.entry e).mapLive LiveNotice.age),
    notice.lists := tabulate (fun c => (s.listsOf c).age) }

def PortionRecord.age (r : PortionRecord) : PortionRecord := { r with deadline := r.deadline.map (· - 1) }

/-- R13, R17: a tick less for a detach deadline. -/
def ageDetach (s : State) : State :=
  { s with formation.portions :=
      ⟨s.formation.portions.a.age, s.formation.portions.b.age, s.formation.portions.c.age⟩ }

def ageStabling (s : State) : State :=
  { s with time.stablingDeadline := s.time.stablingDeadline.map (· - 1) }

def countTick (s : State) : State := { s with time.tickCount := s.time.tickCount + 1 }

/-- What each owner does with a tick: the timers at their last tick end, the others have a tick less. -/
def tickStore (s : State) : State := ageHolds (all16.foldl (fun s c => expireHolds c s) s)

/-- The notice unit's: the lifetimes that end at one tick place their PULLs by rising entry number (DESIGN CHOICE,
log 29, safe). -/
def tickNotices (s : State) : State :=
  ageNotices (all24.foldl (fun s e => expireReceipt e s) (all24.foldl (fun s e => expireLifetime e s) s))

def tickFormation (s : State) : State := ageDetach (expireDetach s)

def tickStabling (s : State) : State := ageStabling (expireStabling s)

/-- TICK (R190): the count rises, and each owner takes the tick in the order of R190's table (log 5). -/
def takeTick (s : State) : State :=
  if s.running then tickStabling (tickFormation (tickNotices (tickStore (countTick s)))) else s

/-- A timer's end is taken only while timers run (R190). -/
def whileRunning (effect : State → State) (s : State) : State := if s.running then effect s else s

/-! ## The orders of mode control -/

/-- The answer of the stabling orders: OK with the mode as it stands after the order. -/
def modeAnswer (s : State) : Reply := okWith [⟨1, u8 s.time.mode.code⟩]

/-- ENTER_STABLED (R191). -/
def carryEnterStabled : Carry := fun fs s =>
  if fs.isEmpty then (enterStabling s, modeAnswer (enterStabling s)) else (s, refuse .malformed)

/-- LEAVE_STABLED (R193). -/
def carryLeaveStabled : Carry := fun fs s =>
  if fs.isEmpty then (returnToService s, modeAnswer (returnToService s)) else (s, refuse .malformed)

/-- R57: every seat generation stands one above a value, and SEATS is set on every BOUND port. -/
def advanceAllSeats (before : Vector Nat 16) (s : State) : State :=
  { s with
    store.seatGens := tabulate (fun c => nextCount before[c]),
    ports := refreshBound (fun r => { r with seats := true }) s.ports }

/-- R77: every reservation is retired, and every seat generation stands one above its value before the order. -/
def clearReservations (before : Vector Nat 16) (s : State) : State :=
  advanceAllSeats before (retireAll s.store.reservations s)

/-- R194 step 3. -/
def clearStops (s : State) : State :=
  releaseNames s.route.stops (setStops [] s)

/-- R194 step 4. The PULLs that one event places for several entries are placed by rising entry number, which is the
order in which R108 has a coach's port send them: the spec gives no order (DESIGN CHOICE, log 29, safe). -/
def clearNotices (s : State) : State := all24.foldl (fun s e => freeEntry e true s) s

/-- R194 step 5 for one portion. -/
def PortionRecord.clearProgress (r : PortionRecord) : PortionRecord :=
  if r.state = .attached then { r with phase := some .noRoute, current := none, lastArrived := none } else r

def clearProgress (s : State) : State :=
  { s with formation.portions := ⟨s.formation.portions.a.clearProgress, s.formation.portions.b.clearProgress,
      s.formation.portions.c.clearProgress⟩ }

/-- R194, steps 1 to 6, but for the notice generation. -/
def clearJourney (s : State) : State :=
  advanceFormation (advanceRoute (clearProgress (clearNotices (clearStops
    (clearReservations s.store.seatGens (forceDetach s))))))

/-- JOURNEY_CLEAR (R194). The notice generation advances once, whether or not a notice was live; where one was, the
advance is the order's own (`carryOrder`). -/
def carryJourneyClear : Carry := fun fs s =>
  if fs.isEmpty then
    let t := clearJourney s
    (if noticeNews s t then t else advanceNotice t, okWith [])
  else (s, refuse .malformed)

/-! ## The commands -/

def execPowerOn (strap : StartKind) (s : State) : Outcome := .next (powerUp strap s)
def execResetNAsserted (s : State) : Outcome := .next (holdReset s)
def execResetNReleased (s : State) : Outcome := .next (releaseReset s)
def execStartUpEnd (failed : List Nat) (s : State) : Outcome := .next (endStartUp failed s)
def execEnterStabled (s : State) : Outcome := .next (orderStep (· == 30) carryEnterStabled s)
def execLeaveStabled (s : State) : Outcome := .next (orderStep (· == 31) carryLeaveStabled s)
def execJourneyClear (s : State) : Outcome := .next (orderStep (· == 32) carryJourneyClear s)
def execTick (s : State) : Outcome := .next (takeTick s)
def execProvisionalHoldExpiry (coach : Fin 16) (s : State) : Outcome := .next (whileRunning (expireHolds coach) s)
def execLifetimeExpiry (entry : Fin 24) (s : State) : Outcome := .next (whileRunning (expireLifetime entry) s)
def execReceiptDeadlineExpiry (entry : Fin 24) (s : State) : Outcome := .next (whileRunning (expireReceipt entry) s)
def execPushTimeout (coach : Fin 16) (s : State) : Outcome := .next (whileRunning (timeOutPush coach) s)
def execDetachDeadlineExpiry (s : State) : Outcome := .next (whileRunning expireDetach s)
def execStablingDeadlineExpiry (s : State) : Outcome := .next (whileRunning expireStabling s)

end Sys2Proof.Machine
end

