-- ==== Sys2Proof/Machine/Notices.lean ====
section
/-! DEFINITION. The crew orders of the notice unit (R99 to R103). -/

namespace Sys2Proof.Machine

def issueParams : List Param := [need 1 1, need 2 1, may 3 1, may 4 2, need 5 2, may 6 1, need 7 2]

/-- R99 check 1: the shape, and one target that is not empty. -/
def issueMalformed (fs : List RawField) : Bool :=
  !shaped issueParams fs || (optNum fs 3).isSome == (optNum fs 4).isSome ||
    optNum fs 3 == some 0 || optNum fs 4 == some 0

/-- The target that ISSUE names. -/
def issueTarget (fs : List RawField) : Target :=
  match optNum fs 3 with
  | some n => .portions (.ofCode n)
  | none => .coaches (.ofCode (num fs 4))

/-- R99 check 2. -/
def issueOutOfRange (fs : List RawField) : Bool :=
  (NoticeKind.general (num fs 1)).isNone || !within 0 7 (num fs 2) || !optWithin 0 7 (optNum fs 3) ||
    !within 1 511 (num fs 5) || !optWithin 1 250 (optNum fs 6) ||
    !(num fs 7 == 0 || within 10 36000 (num fs 7))

/-- R99 checks 3 and 4: the portions of a target, its own or those of its coaches. -/
def targetPortion (s : State) (t : Target) (p : Portion) : Bool :=
  match t with
  | .portions ps => ps.mem p
  | .coaches cs => all16.any (fun c => cs[c] && s.portionOf c == some p)

/-- A portion of the target is VACANT, or a coach of it is not defined (R99 check 3). -/
def targetUnknown (s : State) : Target → Bool
  | .portions ps => Portion.all.any (fun p => ps.mem p && (s.portion p).state == .vacant)
  | .coaches cs => all16.any (fun c => cs[c] && (s.coach c).isNone)

/-- The lowest-numbered FREE general entry (R100). -/
def freeGeneral (s : State) : Option (Fin 24) := all24.find? (fun e => e.val < 21 && (s.entry e).live.isNone)

/-- R99, checks 3 to 6. -/
def issueChecks (s : State) (fs : List RawField) : List (Bool × StatusCode) :=
  let t := issueTarget fs
  let subject := (optNum fs 6).map (findStop s.route.stops)
  [ (targetUnknown s t || subject.any (·.isNone), .unknown),
    (subject.any (fun x => !Portion.all.any (fun p => targetPortion s t p && x.any (fun x => x.portions.mem p))), .notServed),
    ((freeGeneral s).isNone, .full),
    (addRefused s (num fs 5) == some .unknown, .unknown),
    (addRefused s (num fs 5) == some .retiring, .retiring) ]

/-- ISSUE taken (R100). -/
def takeIssue (e : Fin 24) (fs : List RawField) (s : State) : State × Reply :=
  let l : LiveNotice :=
    { kind := (NoticeKind.general (num fs 1)).getD .custom, priority := num fs 2, target := issueTarget fs,
      text := num fs 5, subject := optNum fs 6,
      lifetime := if num fs 7 = 0 then none else some (num fs 7),
      edition := 0, start := 0, state := .partly,
      delivery := CoachSet.none, receipted := CoachSet.none, holders := CoachSet.none }
  let edition := (s.entry e).counter
  (startEdition e ((addRef (num fs 5) s).updEntry e (fun n => { n with live := some l })),
    okWith [⟨1, u8 (e.val + 1)⟩, ⟨2, u16 edition⟩])

/-- ISSUE (R99). -/
def carryIssue : Carry := fun fs s =>
  if issueMalformed fs then (s, refuse .malformed)
  else if issueOutOfRange fs then (s, refuse .range)
  else
    judged (issueChecks s fs) s
      (match freeGeneral s with
        | none => (s, refuse .full)
        | some e => takeIssue e fs s)

/-- AMEND taken (R101). -/
def takeAmend (e : Fin 24) (l : LiveNotice) (text : Nat) (priority : Option Nat) (s : State) : State × Reply :=
  let edition := (s.entry e).counter
  let s := s.updEntry e (NoticeEntry.mapLive (fun l => { l with text := text, priority := priority.getD l.priority }))
  (startEdition e (moveRef (some l.text) (some text) s), okWith [⟨1, u16 edition⟩])

/-- AMEND (R101). -/
def carryAmend : Carry := fun fs s =>
  if !shaped [need 1 1, need 2 2, may 3 1] fs then (s, refuse .malformed)
  else if !within 1 21 (num fs 1) || !optWithin 0 7 (optNum fs 3) || !within 1 511 (num fs 2) then
    (s, refuse .range)
  else
    match entryNo (num fs 1) with
    | none => (s, refuse .range)
    | some e =>
      match (s.entry e).live with
      | none => (s, refuse .unknown)
      | some l =>
        match if num fs 2 = l.text then none else addRefused s (num fs 2) with
        | some code => (s, refuse code)
        | none => takeAmend e l (num fs 2) (optNum fs 3) s

/-- WITHDRAW (R103). -/
def carryWithdraw : Carry := fun fs s =>
  if !shaped [need 1 1] fs then (s, refuse .malformed)
  else
    match entryNo (num fs 1) with
    | none => (s, refuse .range)
    | some e =>
      match (s.entry e).live with
      | none => (s, refuse .unknown)
      | some _ => (freeEntry e true s, okWith [])

/-! ## The commands: the grant of an order of each kind (R124, R125, R179) -/

/-- ISSUE (R99, R100). -/
def execIssue (s : State) : Outcome := .next (orderStep (· == 24) carryIssue s)

/-- AMEND (R101). -/
def execAmend (s : State) : Outcome := .next (orderStep (· == 25) carryAmend s)

/-- WITHDRAW (R103). -/
def execWithdraw (s : State) : Outcome := .next (orderStep (· == 26) carryWithdraw s)

end Sys2Proof.Machine
end

