-- ==== Sys2Proof/Machine/Reservations.lean ====
section
/-! DEFINITION. The orders of the reservation store (R58 to R71). -/

namespace Sys2Proof.Machine

/-- A new booking with every parameter in its range (R58). -/
structure Booking where
  coach : Fin 16
  seat : Nat
  board : Nat
  alight : Nat
  code : Option (BitVec 32)
  label : Option Nat
  hold : Hold
  deriving DecidableEq, Repr

/-- The parameters of a booking whose fields begin at an id (11.1: coach, seat, board, alight, code, label, hold). -/
def bookingParams (id : Nat) : List Param :=
  [need id 1, need (id + 1) 1, need (id + 2) 1, need (id + 3) 1, may (id + 4) 4, may (id + 5) 2, may (id + 6) 1]

/-- R58: the booking that fields give, none where one is out of range; a PROVISIONAL hold begins with the provisional
hold setting (R62). -/
def readBooking (id : Nat) (s : State) (fs : List RawField) : Option Booking :=
  match coachNo (num fs id), Hold.ofCode s.settings.provisionalHold (num fs (id + 6)) with
  | some c, some h =>
    if within 1 120 (num fs (id + 1)) && within 1 250 (num fs (id + 2)) && within 1 250 (num fs (id + 3)) &&
        optWithin 1 511 (optNum fs (id + 5)) then
      some ⟨c, num fs (id + 1), num fs (id + 2), num fs (id + 3), (optNum fs (id + 4)).map (BitVec.ofNat 32),
        optNum fs (id + 5), h⟩
    else none
  | _, _ => none

/-- Whether the portion that a coach runs in serves a stop. -/
def coachServes (s : State) (c : Fin 16) (stop : Nat) : Bool :=
  (s.portionOf c).any (fun p => (findStop s.route.stops stop).any (fun x => x.portions.mem p))

/-- Whether a stop lies after the last-arrived stop of a coach's portion, if that has one. -/
def coachAhead (s : State) (c : Fin 16) (stop : Nat) : Bool := (s.portionOf c).all (fun p => ahead s p stop)

/-- Whether a reservation on a seat, other than the one with a handle, overlaps a stretch. -/
def seatTaken (s : State) (c : Fin 16) (seat board alight : Nat) (except : Option Nat) : Bool :=
  s.store.reservations.any (fun r =>
    r.coach == c && r.seat == seat && some r.handle != except &&
      overlap s.route.stops board alight r.board r.alight)

/-- R59 check 9: what a label is refused with; a retiring slot passes where it is the label already held (R70). -/
def labelRefused (s : State) (label kept : Option Nat) : Option StatusCode :=
  match label with
  | none => none
  | some id =>
    match addRefused s id with
    | some .retiring => if kept = some id then none else some .retiring
    | other => other

/-- R59, checks 1 to 9; `old` is the record that REPLACE leaves out (R70). -/
def bookingChecks (s : State) (b : Booking) (old : Option Reservation) : List (Bool × StatusCode) :=
  let kept := old.bind (·.label)
  [ ((s.coach b.coach).isNone, .unknown),
    (coachLeaving s b.coach, .detaching),
    ((s.coach b.coach).any (fun k => k.seatCount < b.seat), .range),
    ((findStop s.route.stops b.board).isNone || (findStop s.route.stops b.alight).isNone, .unknown),
    (!coachServes s b.coach b.board || !coachServes s b.coach b.alight, .notServed),
    (!liesBefore s.route.stops b.board b.alight, .range),
    (!coachAhead s b.coach b.alight, .past),
    (seatTaken s b.coach b.seat b.board b.alight (old.map (·.handle)), .conflict),
    (labelRefused s b.label kept == some .unknown, .unknown),
    (labelRefused s b.label kept == some .retiring, .retiring) ]

/-- R52: the first handle from a value on that is in no list of handles. -/
def freeHandle (used : List Nat) : Nat → Nat → Nat
  | 0, h => h
  | fuel + 1, h => if h ∈ used then freeHandle used fuel (if h < 65534 then h + 1 else 1) else h

/-- R52: the handle assigned next, with the handles that are passed over. -/
def nextHandle (s : State) (used : List Nat) : Nat := freeHandle used (used.length + 1) s.store.handleCounter

/-- R60 steps 3 to 6: a record that holds a block is written for a booking, and its handle and status are the
results. -/
def writeBooking (b : Booking) (used : List Nat) (block : Nat) (s : State) : State × Reply :=
  let h := nextHandle s used
  let status := ((s.portionOf b.coach).map (fun p => statusFor s p b.board)).getD .upcoming
  ({ s with
      store.reservations := s.store.reservations ++
        [⟨h, b.coach, b.seat, b.board, b.alight, b.code, b.label, b.hold, status, block⟩],
      store.handleCounter := if h < 65534 then h + 1 else 1 },
    okWith [⟨1, u16 h⟩, ⟨2, u8 status.code⟩])

/-- The handles that reservations hold. -/
def heldHandles (s : State) : List Nat := s.store.reservations.map (·.handle)

/-- BOOK taken (R60). -/
def takeBooking (b : Booking) (s : State) : State × Reply :=
  let block := grantedBlock s
  let s := takeBlock s
  let s := (b.label.map (fun id => addRef id s)).getD s
  let (s, r) := writeBooking b (heldHandles s) block s
  (advanceSeat b.coach s, r)

/-- BOOK (R58, R59). -/
def carryBook : Carry := fun fs s =>
  if !shaped (bookingParams 1) fs then (s, refuse .malformed)
  else
    match readBooking 1 s fs with
    | none => (s, refuse .range)
    | some b => judged (bookingChecks s b none ++ [(s.memory.free == 0, .noSpace)]) s (takeBooking b s)

/-- A handle parameter (R63, R66): the reservation it names, or what it is refused with. -/
def readHandle (s : State) (fs : List RawField) : Except StatusCode Reservation :=
  if !within 1 65534 (num fs 1) then .error .range
  else
    match s.findReservation (num fs 1) with
    | none => .error .unknown
    | some r => .ok r

/-- CONFIRM (R63). -/
def carryConfirm : Carry := fun fs s =>
  if !shaped [need 1 2] fs then (s, refuse .malformed)
  else
    match readHandle s fs with
    | .error code => (s, refuse code)
    | .ok r =>
      match r.hold with
      | .confirmed => (s, okWith [])
      | .provisional _ =>
        (advanceSeat r.coach
          { s with store.reservations :=
              s.store.reservations.map (fun q => if q.handle = r.handle then { q with hold := .confirmed } else q) },
          okWith [])

/-- CANCEL (R66). -/
def carryCancel : Carry := fun fs s =>
  if !shaped [need 1 2] fs then (s, refuse .malformed)
  else
    match readHandle s fs with
    | .error code => (s, refuse code)
    | .ok r => (advanceSeat r.coach (retire r s), okWith [])

/-- CANCEL_CODE (R67). -/
def carryCancelCode : Carry := fun fs s =>
  if !shaped [need 1 4] fs then (s, refuse .malformed)
  else
    let test := fun (r : Reservation) => r.code == some (BitVec.ofNat 32 (num fs 1))
    (retireWhere test s, okWith [⟨1, u16 (s.store.reservations.countP test)⟩])

/-- R68, checks 4 to 9, for a reservation and its destination. -/
def moveChecks (s : State) (r : Reservation) (c : Fin 16) (seat : Nat) : List (Bool × StatusCode) :=
  [ ((s.coach c).isNone, .unknown),
    (coachLeaving s c, .detaching),
    ((s.coach c).any (fun k => k.seatCount < seat), .range),
    (!coachServes s c r.board || !coachServes s c r.alight, .notServed),
    (!coachAhead s c r.alight, .past),
    (seatTaken s c seat r.board r.alight (some r.handle), .conflict) ]

/-- MOVE taken (R69). -/
def takeMove (r : Reservation) (c : Fin 16) (seat : Nat) (s : State) : State × Reply :=
  let status := ((s.portionOf c).map (fun p => statusFor s p r.board)).getD .upcoming
  (advanceSeats (if r.coach = c then [c] else [r.coach, c])
    { s with store.reservations := s.store.reservations.map (fun q =>
        if q.handle = r.handle then { q with coach := c, seat := seat, status := status } else q) },
    okWith [⟨1, u8 status.code⟩])

/-- MOVE (R68). -/
def carryMove : Carry := fun fs s =>
  if !shaped [need 1 2, need 2 1, need 3 1] fs then (s, refuse .malformed)
  else
    match coachNo (num fs 2) with
    | none => (s, refuse .range)
    | some c =>
      if !within 1 120 (num fs 3) then (s, refuse .range)
      else
        match readHandle s fs with
        | .error code => (s, refuse code)
        | .ok r => judged (moveChecks s r c (num fs 3)) s (takeMove r c (num fs 3) s)

/-- REPLACE taken (R71): the old record's block passes to the new one, and no count changes. -/
def takeReplace (old : Reservation) (b : Booking) (s : State) : State × Reply :=
  let used := heldHandles s
  let s := { s with store.reservations := s.store.reservations.filter (fun q => q.handle ≠ old.handle) }
  let s := moveRef old.label b.label s
  let (s, r) := writeBooking b used old.block s
  (advanceSeats (if old.coach = b.coach then [b.coach] else [old.coach, b.coach]) s, r)

/-- REPLACE (R70). -/
def carryReplace : Carry := fun fs s =>
  if !shaped (need 1 2 :: bookingParams 2) fs then (s, refuse .malformed)
  else
    match readBooking 2 s fs with
    | none => (s, refuse .range)
    | some b =>
      match readHandle s fs with
      | .error code => (s, refuse code)
      | .ok old => judged (bookingChecks s b (some old)) s (takeReplace old b s)

/-! ## The commands: the grant of an order of each kind (R124, R125, R179) -/

/-- BOOK (R58 to R60). -/
def execBook (s : State) : Outcome := .next (orderStep (· == 16) carryBook s)

/-- CONFIRM (R63). -/
def execConfirm (s : State) : Outcome := .next (orderStep (· == 17) carryConfirm s)

/-- CANCEL (R66). -/
def execCancel (s : State) : Outcome := .next (orderStep (· == 18) carryCancel s)

/-- CANCEL_CODE (R67). -/
def execCancelCode (s : State) : Outcome := .next (orderStep (· == 19) carryCancelCode s)

/-- MOVE (R68, R69). -/
def execMove (s : State) : Outcome := .next (orderStep (· == 20) carryMove s)

/-- REPLACE (R70, R71). -/
def execReplace (s : State) : Outcome := .next (orderStep (· == 21) carryReplace s)

end Sys2Proof.Machine
end

