-- ==== Sys2Proof/Machine/Texts.lean ====
section
/-! DEFINITION. The orders of the text store (R86, R87). -/

namespace Sys2Proof.Machine

/-- PUT_TEXT taken (R86): the blocks are claimed and chained (R82), and the slot is present with count 0. -/
def takePutText (id : Nat) (bytes : List Byte) (s : State) : State :=
  let k := textBlocks bytes.length
  settlePool { s with
    memory.free := s.memory.free - k, memory.text := s.memory.text + k,
    memory.texts := s.memory.texts ++ [⟨id, bytes, 0, false, grantedChain s k⟩] }

/-- PUT_TEXT (R86). -/
def carryPutText : Carry := fun fs s =>
  if !shaped [need 1 2, ⟨2, 0, 255, true⟩] fs then (s, refuse .malformed)
  else
    let id := num fs 1
    let bytes := (bytesOf fs 2).getD []
    judged
      [ (!within 1 511 id || !within 1 240 bytes.length, .range),
        ((s.findText id).isSome, .conflict),
        (!textGranted s (textBlocks bytes.length), .noSpace) ] s
      (takePutText id bytes s, okWith [⟨1, u8 (textBlocks bytes.length)⟩])

/-- DROP_TEXT (R87); its outcome is FREED 0 or RETIRING 1, the latter with the reference count. -/
def carryDropText : Carry := fun fs s =>
  if !shaped [need 1 2] fs then (s, refuse .malformed)
  else if !within 1 511 (num fs 1) then (s, refuse .range)
  else
    match s.findText (num fs 1) with
    | none => (s, refuse .unknown)
    | some t =>
      if t.retiring = false ∧ t.refs = 0 then (freeText t s, okWith [⟨1, u8 0⟩])
      else
        ({ s with memory.texts := s.memory.texts.map (fun u => if u.id = t.id then { u with retiring := true } else u) },
          okWith [⟨1, u8 1⟩, ⟨2, u16 t.refs⟩])

/-! ## The commands: the grant of an order of each kind (R124, R125, R179) -/

/-- PUT_TEXT (R86). -/
def execPutText (s : State) : Outcome := .next (orderStep (· == 22) carryPutText s)

/-- DROP_TEXT (R87). -/
def execDropText (s : State) : Outcome := .next (orderStep (· == 23) carryDropText s)

end Sys2Proof.Machine
end

