-- ==== Sys2Proof/Machine/CrewPort.lean ====
section
/-! DEFINITION. The crew port: transfers and intake (R176 to R182, R198, R199), SET (R183) and ACKNOWLEDGE (R186). A
transfer is one step (log 6). -/

namespace Sys2Proof.Machine

/-! ## Transfers -/

/-- The bytes driven on CREW_DOUT. -/
def drive (bytes : List Byte) (s : State) : State := { s with crew.out := bytes }

inductive IntakeCode where
  | taken | busy | check | starting
  deriving DecidableEq, Repr

/-- Intake codes (11.1). -/
def IntakeCode.byte : IntakeCode → Byte
  | .taken => 0x01
  | .busy => 0x02
  | .check => 0x03
  | .starting => 0x04

/-- R177: the intake code of a complete frame. -/
def intakeCode (frame : List Byte) (s : State) : IntakeCode :=
  if s.time.startUp.isSome then .starting
  else if (judgeOrder frame).isNone then .check
  else if s.crew.slots.length < Config.crewSlots then .taken
  else .busy

/-- R177: a frame is judged at intake; a FREE slot takes it where the code is TAKEN. -/
def intake (frame : List Byte) (s : State) : State :=
  match intakeCode frame s, judgeOrder frame with
  | .taken, some o => { s with crew.slots := s.crew.slots ++ [⟨o, .taken⟩] }
  | _, _ => s

/-- ORDER_TRANSFER (R176, R177, R198). A transfer that ends before its intake byte is dropped. -/
def takeTransfer (bytes : List Byte) (s : State) : State :=
  if s.time.resetHeld then drive [] s
  else
    match orderFrameLength bytes with
    | none => drive [] s
    | some length =>
      if bytes.length ≤ length then drive [] s
      else
        let frame := bytes.take length
        drive ((intakeCode frame s).byte :: List.replicate (bytes.length - length - 1) Config.filler) (intake frame s)

/-- R199: the first bytes of a frame, then filler. -/
def clockOut (frame : List Byte) (clocked : Nat) : List Byte :=
  (frame ++ List.replicate (clocked - frame.length) Config.filler).take clocked

/-- The frame of an answer, or the empty mark (R199). -/
def returned : Option CrewAnswer → List Byte
  | none => [Config.emptyMark]
  | some a => a.frame

def CrewSlot.isReady (k : CrewSlot) : Bool :=
  match k.state with
  | .answerReady _ => true
  | _ => false

/-- R180, steps 1 to 3: the answer at the head leaves the queue, is the last fetched one, and its slot is FREE. -/
def completeFetch (a : CrewAnswer) (s : State) : State :=
  { s with crew.slots := s.crew.slots.eraseP CrewSlot.isReady, crew.lastFetched := some a }

/-- The answer that a FETCH finds (R180); during start-up the queue counts as empty (R182, R195). -/
def fetchHead (s : State) : Option CrewAnswer := if s.running then (answerQueue s).head? else none

/-- FETCH (R180, R199). -/
def takeFetch (clocked : Nat) (s : State) : State :=
  if s.time.resetHeld then drive [] s
  else
    let t := drive (clockOut (returned (fetchHead s)) clocked) s
    match fetchHead s with
    | none => t
    | some a => if a.frame.length ≤ clocked then completeFetch a t else t

/-- REFETCH (R181, R199). -/
def takeRefetch (clocked : Nat) (s : State) : State :=
  if s.time.resetHeld then drive [] s
  else drive (clockOut (returned (if s.running then s.crew.lastFetched else none)) clocked) s

/-- UNKNOWN_TRANSFER (R176). A first byte that names a kind is no step of this row. -/
def takeUnknown (first : Byte) (clocked : Nat) (s : State) : State :=
  if first = Config.orderTransfer ∨ first = Config.fetchTransfer ∨ first = Config.refetchTransfer then s
  else if s.time.resetHeld then drive [] s
  else drive (List.replicate clocked Config.filler) s

/-- R179: an order of no known kind is answered by the crew port itself. -/
def carryUnknown : Carry := fun _ s => (s, refuse .malformed)

/-! ## SET (R183): setting 1, value 2, index 3 -/

/-- How many values the index of a setting has; none for a setting without one. -/
def indexCount : Nat → Option Nat
  | 5 => some 16
  | 9 => some 3
  | 16 => some 16
  | 18 | 19 => some 8
  | 20 => some 2
  | _ => none

/-- How many bytes the value of a setting takes (11.1, Numbers). -/
def settingWidth : Nat → Nat
  | 1 | 2 | 7 | 11 | 12 | 13 => 2
  | _ => 1

/-- The range of a setting's value (R183). -/
def settingRange (setting value : Nat) : Bool :=
  match setting with
  | 1 | 2 => within 0 2048 value
  | 3 => within 5 250 value
  | 4 | 5 | 6 => within 1 4 value
  | 7 => within 50 800 value && value % 50 == 0
  | 8 => within 1 32 value
  | 11 => within 10 1200 value
  | 12 => within 10 600 value
  | 13 => within 300 18000 value
  | 18 | 20 => within 0 7 value
  | 21 => within 0 255 value
  | _ => within 0 1 value

/-- What R183 answers MALFORMED. -/
def setMalformed (fs : List RawField) : Bool :=
  !shaped [need 1 1, ⟨2, 1, 2, true⟩, may 3 1] fs || !within 1 21 (num fs 1) ||
    (bytesOf fs 2).any (fun v => v.length != settingWidth (num fs 1)) ||
    (optNum fs 3).isSome != (indexCount (num fs 1)).isSome

/-- What R183 answers RANGE. -/
def setOutOfRange (fs : List RawField) : Bool :=
  (indexCount (num fs 1)).any (fun n => n ≤ num fs 3) || !settingRange (num fs 1) (num fs 2)

/-- R154: a lowered quota acts at once: the excess is answered BUSY, the most recently arrived first (log 15). -/
def Port.trimQuota (quota : Nat) (q : Port) : Port :=
  { q with
    waiting := q.waiting.take quota,
    outbox := q.outbox ++ (q.waiting.drop quota).reverse.map (fun w => ⟨w.tag, refuse .busy, false⟩) }

/-- R110: a lowered push limit acts at once: the most recently sent items time out. -/
def trimFlights (limit : Nat) (n : NoticeUnit) : NoticeUnit :=
  { n with lists := tabulate (fun c => { n.lists[c] with inFlight := n.lists[c].inFlight.take limit }) }

def setQuota (p : Fin 16) (quota : Nat) (s : State) : State :=
  { s with settings.queryQuota := update s.settings.queryQuota p (fun _ => quota) }.updPort p (Port.trimQuota quota)

/-- The auto stop notices enable of a kind: NEXT_STOP 0, APPROACHING 1, AT_STOP 2. -/
def setAutoStop (kind : Nat) (on : Bool) (s : State) : State :=
  match kind with
  | 0 => { s with settings.autoNextStop := on }
  | 1 => { s with settings.autoApproaching := on }
  | _ => { s with settings.autoAtStop := on }

def setMask (kind : Fin 16) (on : Bool) (s : State) : State :=
  { s with settings.masked := update s.settings.masked kind (fun _ => on) }

/-- A line setting, after which the function states and the pattern are worked out anew without events (R165). -/
def setLine (n : Nat) (f : Line → Line) (s : State) : State :=
  match lineNo n with
  | none => s
  | some n => recompute (s.updLine n f)

def setCheckTime (group : Nat) (code : Fin 8) (s : State) : State :=
  { s with lines.checkTimes := update s.lines.checkTimes (if group = 0 then 0 else 1) (fun _ => code) }

/-- R174: every line's in-pattern flag is rewritten. -/
def setPattern (mask : Nat) (s : State) : State :=
  recompute { s with lines.lines := tabulate (fun n => { s.lines.lines[n] with inPattern := mask.testBit n.val }) }

/-- R183: a setting takes a value that is in its range, and its owner acts on it. -/
def writeSetting (setting index value : Nat) (s : State) : State :=
  let on := value == 0
  match setting with
  | 1 => { s with settings.reservationFloor := value }
  | 2 => settlePool { s with settings.lowWater := value }
  | 3 => { s with settings.receiptDeadline := value }
  | 4 => { s with settings.pushLimit := value, notice := trimFlights value s.notice }
  | 5 => ((portNo index).map (fun p => setQuota p value s)).getD s
  | 6 => { s with settings.crewBurst := value }
  | 7 => { s with settings.lossGrace := value }
  | 8 => { s with settings.itemCap := value }
  | 9 => setAutoStop index on s
  | 10 => { s with settings.arrivalNeedsApproach := on }
  | 11 => { s with settings.detachDeadline := value }
  | 12 => { s with settings.stablingDeadline := value }
  | 13 => { s with settings.provisionalHold := value }
  | 14 => { s with settings.darkPolicy := if value = 0 then .refuseAll else .seatsInDark }
  | 15 => { s with settings.doorsEndStabling := on }
  | 16 => ((portNo index).map (fun k => setMask k on s)).getD s
  | 17 => { s with settings.twoLines := value == 1 }
  | 18 => setLine index (fun l => { l with function := (LineFunction.ofCode value).getD l.function }) s
  | 19 => setLine index (fun l => { l with activeLevel := (LineLevel.ofCode value).getD l.activeLevel }) s
  | 20 => ((lineNo value).map (fun code => setCheckTime index code s)).getD s
  | 21 => setPattern value s
  | _ => s

/-- SET (R183). -/
def carrySet : Carry := fun fs s =>
  if setMalformed fs then (s, refuse .malformed)
  else if setOutOfRange fs then (s, refuse .range)
  else (writeSetting (num fs 1) (num fs 3) (num fs 2) s, okWith [])

/-! ## ACKNOWLEDGE (R186) -/

/-- An item of ACKNOWLEDGE as it is sent: kind, form (pair 0, kind-wide 1) and subject bytes (11.1). -/
structure AckItem where
  kind : Nat
  form : Nat
  subject : Nat
  deriving DecidableEq, Repr

/-- The items in a value whose length is a multiple of three. -/
def ackItems : List Byte → List AckItem
  | k :: f :: x :: rest => ⟨k.toNat, f.toNat, x.toNat⟩ :: ackItems rest
  | _ => []

/-- A kind with no subject (R184). -/
def kindAlone (kind : Nat) : Bool := kind == 0 || kind == 8 || kind == 9 || kind == 15

/-- What 11.1 calls MALFORMED in an item. -/
def AckItem.malformed (i : AckItem) : Bool :=
  15 < i.kind || 1 < i.form || ((kindAlone i.kind || i.form == 1) && i.subject != 0)

/-- The pair that a kind and a subject byte name; none for a subject outside its range. -/
def conditionOf (kind subject : Nat) : Option Condition :=
  match kind with
  | 0 => some .started
  | 1 => (Portion.ofCode subject).map .arrived
  | 2 => (Portion.ofCode subject).map .departed
  | 3 => (Portion.ofCode subject).map .detachDone
  | 4 => (entryNo subject).map .noticeDelivered
  | 5 => (entryNo subject).map .noticePartial
  | 6 => (coachNo subject).map .provisionalLapsed
  | 7 => (coachNo subject).map .coachJoined
  | 8 => some .stabledReached
  | 9 => some .pattern
  | 10 => (coachNo subject).map .coachLost
  | 11 => (portNo subject).map .greetMismatch
  | 12 => (Portion.ofCode subject).map .detachForced
  | 13 => (Portion.ofCode subject).map .unexpectedUncouple
  | 14 => (Portion.ofCode subject).map .doorSideMismatch
  | 15 => some .poolLow
  | _ => none

def AckItem.outOfRange (i : AckItem) : Bool := i.form == 0 && (conditionOf i.kind i.subject).isNone

/-- Whether an item names a pair. -/
def AckItem.names (i : AckItem) (c : Condition) : Bool :=
  if i.form = 0 then conditionOf i.kind i.subject == some c else c.kind.val == i.kind

def ackMalformed (fs : List RawField) : Bool :=
  !shaped [⟨1, 0, 48, false⟩] fs || fs.any (fun f => f.value.length % 3 != 0 || (ackItems f.value).any AckItem.malformed)

/-- The items that an ACKNOWLEDGE carries. -/
def ackList (fs : List RawField) : List AckItem := ackItems ((bytesOf fs 1).getD [])

/-- R186, steps 1 and 2. -/
def acknowledge (items : List AckItem) (s : State) : State :=
  settlePool { s with crew.attention := s.crew.attention.filter (fun c => !items.any (·.names c)) }

/-- ACKNOWLEDGE (R186): the number removed, and the summary as the order leaves the set (R187). -/
def carryAcknowledge : Carry := fun fs s =>
  if ackMalformed fs then (s, refuse .malformed)
  else if (ackList fs).any AckItem.outOfRange then (s, refuse .range)
  else
    let t := acknowledge (ackList fs) s
    let removed := s.crew.attention.countP (fun c => (ackList fs).any (·.names c))
    (t, okWith [⟨1, u8 removed⟩, ⟨2, attentionSummary t⟩])

/-! ## The commands -/

def execOrderTransfer (bytes : List Byte) (s : State) : Outcome := .next (takeTransfer bytes s)
def execFetch (clocked : Nat) (s : State) : Outcome := .next (takeFetch clocked s)
def execRefetch (clocked : Nat) (s : State) : Outcome := .next (takeRefetch clocked s)
def execUnknownTransfer (first : Byte) (clocked : Nat) (s : State) : Outcome := .next (takeUnknown first clocked s)
def execUnknownOrder (s : State) : Outcome := .next (orderStep (fun k => k == 0 || 32 < k) carryUnknown s)
def execSet (s : State) : Outcome := .next (orderStep (· == 28) carrySet s)
def execAcknowledge (s : State) : Outcome := .next (orderStep (· == 29) carryAcknowledge s)

end Sys2Proof.Machine
end

