-- ==== Sys2Proof/Machine/Items.lean ====
section
/-! DEFINITION. The items that lookups return: for each record kind its fields, numbered from 0 as R129 gives
(log 10), with the fields each port holds (R132, R134, R136, R138, R139, R189). -/

namespace Sys2Proof.Machine

/-- The locators in the order of their codes (11.1). -/
inductive Locator where
  | seat | seatNext | seatCursor | stopRel | stopAt | routeWindow | notices | formation | self | resume
  | reservation | booking | coach | port | text | notice | pool | lines | settings | identity
  deriving DecidableEq, Repr

def Locator.all : List Locator :=
  [.seat, .seatNext, .seatCursor, .stopRel, .stopAt, .routeWindow, .notices, .formation, .self, .resume,
    .reservation, .booking, .coach, .port, .text, .notice, .pool, .lines, .settings, .identity]

/-- SEAT is 1 and IDENTITY 20 (11.1). -/
def Locator.ofCode (n : Nat) : Option Locator := if n = 0 then none else Locator.all[n - 1]?

/-- The locator that a walk continues, as its code. -/
def Walk.code : Walk → Nat
  | .seat _ _ => 1
  | .routeWindow _ _ _ => 6
  | .notices => 7
  | .formation => 8
  | .booking _ => 12
  | .lines => 18
  | .settings => 19

/-- The fields of a record by number; an absent optional field is none. -/
abbrev Record := List (Nat × Option (List Byte))

/-- R129: the item of a record: the fields held on the port, all of them for an empty selection, else the key fields
and those selected. An item field's id is its number plus 1 (11.2). -/
def itemOf (held keys : List Nat) (mask : Nat) (r : Record) : Item :=
  presentFields ((r.filter (fun f => f.1 ∈ held && (mask == 0 || f.1 ∈ keys || mask.testBit f.1))).map
    (fun f => (f.1 + 1, f.2)))

/-- Field numbers from 0 up to, not including, n. -/
def upTo (n : Nat) : List Nat := List.range n

/-- The fields that a locator's record kind holds on the crew port or on a coach port. FORMATION holds those of its column in
R138's table on the crew port too, where COACH holds more (DEDUCED, log 42, unsafe). -/
def heldFields (crew : Bool) : Locator → List Nat
  | .seat | .reservation | .booking => upTo (if crew then 10 else 6)
  | .seatNext => upTo 6
  | .stopRel | .stopAt | .routeWindow => upTo (if crew then 13 else 12)
  | .notices => [0, 2, 3, 5, 7, 8]
  | .formation => upTo 6
  | .self => upTo 8 ++ [11, 12, 13, 14, 15, 16]
  | .coach => upTo 11
  | .port => upTo 14
  | .text => upTo 5
  | .notice => upTo 19
  | .pool => upTo 8
  | .lines => upTo 7
  | .settings => upTo 3
  | .identity => upTo 4
  | .seatCursor | .resume => []

/-- R132: handle, board stop, alight stop, status, hold, label, and on the crew port remaining ticks, code, coach,
seat. -/
def reservationRecord (s : State) (r : Reservation) : Record :=
  [ (0, some (u16 r.handle)), (1, some (u8 r.board)), (2, some (u8 r.alight)), (3, some (u8 r.status.code)),
    (4, some (u8 r.hold.code)), (5, r.label.map (fun id => s.textBytes id)),
    (6, match r.hold with
      | .confirmed => none
      | .provisional ticks => some (u16 ticks)),
    (7, r.code.map (fun k => u32 k.toNat)), (8, some (u8 (r.coach.val + 1))), (9, some (u8 r.seat)) ]

/-- R134: seat, occupancy (OCCUPIED 0, FREE 1), until stop, active label, next board stop, count. -/
def seatRecord (s : State) (c : Fin 16) (seat : Nat) : Record :=
  let chain := seatChain s c seat
  let active := chain.find? (fun r => r.status == .active)
  [ (0, some (u8 seat)), (1, some (u8 (flagCode active.isSome))), (2, active.map (fun r => u8 r.alight)),
    (3, (active.bind (·.label)).map (fun id => s.textBytes id)),
    (4, (chain.find? (fun r => r.status == .upcoming)).map (fun r => u8 r.board)), (5, some (u8 chain.length)) ]

/-- R135: the place in a portion's served sequence from which offsets count. -/
def originOf (s : State) (p : Portion) : Nat :=
  (((s.portion p).current).bind (fun x => placeOf (servedSequence s.route.stops p) x)).getD 0

/-- R135: the relation of a place in the served sequence: PASSED 0, CURRENT 1, AHEAD 2. -/
def relationCode (s : State) (p : Portion) (place : Nat) : Nat :=
  if (s.portion p).phase = some .noRoute then 2
  else if place < originOf s p then 0
  else if place = originOf s p then 1
  else 2

/-- R136: stop id, offset, relation, name, platform, door side, scheduled arrival and departure, delay, kind,
cancelled, portion set, and on the crew port the position. -/
def stopRecord (s : State) (p : Portion) (place : Nat) (x : Stop) : Record :=
  [ (0, some (u8 x.id)), (1, some (offsetByte ((place : Int) - (originOf s p : Int)))),
    (2, some (u8 (relationCode s p place))), (3, some (s.textBytes x.name)), (4, x.platform.map u8),
    (5, x.side.map (fun d => u8 d.code)), (6, x.arrival.map u16), (7, x.departure.map u16), (8, some (u8 x.delay)),
    (9, some (u8 x.kind.code)), (10, some (u8 (flagCode x.cancelled))), (11, some (u8 x.portions.code)),
    (12, (placeOf s.route.stops x.id).map (fun i => u8 (i + 1))) ]

/-- A target as a mask: one byte for a portion set, two for a coach set (11.1, Sets; log 10). -/
def Target.bytes : Target → List Byte
  | .portions ps => u8 ps.code
  | .coaches cs => u16 cs.code

/-- R139, NOTICE(entry); R138 gives the fields of the coach port. A lifetime of 0 is "until withdrawn", as in ISSUE. "The
delivery, receipted and holders sets with the number of coaches in each" are six fields, the three sets 12 to 14 and then
the three numbers 15 to 17; the edition counter of a FREE entry is 18 (DEDUCED, log 31, unsafe). -/
def noticeRecord (s : State) (e : Fin 24) : Record :=
  let n := s.entry e
  let live := fun (f : LiveNotice → List Byte) => n.live.map f
  [ (0, some (u8 (e.val + 1))), (1, some (u8 n.stateCode)), (2, live (fun l => u8 l.kind.code)),
    (3, live (fun l => u8 l.priority)), (4, live (fun l => l.target.bytes)),
    (5, (n.live.bind (·.subject)).map u8), (6, live (fun l => u16 l.text)), (7, live (fun l => s.textBytes l.text)),
    (8, live (fun l => u16 l.edition)), (9, live (fun l => u32 l.start.toNat)),
    (10, live (fun l => u16 (l.lifetime.getD 0))),
    (11, n.live.bind (fun l => match l.state with
      | .delivering ticks => some (u8 ticks)
      | _ => none)),
    (12, live (fun l => u16 l.delivery.code)), (13, live (fun l => u16 l.receipted.code)),
    (14, live (fun l => u16 l.holders.code)), (15, live (fun l => u8 l.delivery.members.length)),
    (16, live (fun l => u8 l.receipted.members.length)), (17, live (fun l => u8 l.holders.members.length)),
    (18, if n.live.isNone then some (u16 n.counter) else none) ]

/-- R138: the destination, the last stop of the served sequence that is not cancelled. -/
def destination (s : State) (p : Portion) : Option Nat :=
  (((servedSequence s.route.stops p).filter (fun x => !x.cancelled)).getLast?).map (·.id)

/-- R138: the fields of coach items; number 17 is the state of a VACANT entry (log 10). -/
def coachRecord (s : State) (c : Fin 16) : Record :=
  match s.coach c with
  | none => [(0, some (u8 (c.val + 1))), (17, some (u8 0))]
  | some k =>
    let r := s.portion k.portion
    [ (0, some (u8 (c.val + 1))), (1, some k.label), (2, some (u8 k.portion.code)), (3, some (u8 k.position)),
      (4, some (u8 k.seatCount)), (5, some (u8 k.level.code)), (6, some (u8 (flagCode k.hidden))),
      (7, some (u8 (flagCode k.wakeAllowed))), (8, k.port.map (fun p => u8 p.val)), (9, some (u8 k.link.code)),
      (10, k.savedLevel.map (fun l => u8 l.code)), (11, some (u8 r.state.code)), (12, r.phase.map (fun h => u8 h.code)),
      (13, r.current.map u8), (14, r.lastArrived.map u8), (15, (destination s k.portion).map u8),
      (16, some (u8 (servedSequence s.route.stops k.portion).length)) ]

/-- REFRESH classes as a mask (11.3). -/
def RefreshFlags.code (r : RefreshFlags) : Nat := r.seats.toNat + 2 * r.route.toNat + 4 * r.formation.toNat

/-- The queries in flight of a port, WAITING and ANSWERED (R143). -/
def Port.inFlight (q : Port) : Nat := q.waiting.length + (q.outbox.filter (fun a => !a.refusal)).length

/-- R139, PORT(n). The pending control messages are a mask with WELCOME at bit 0, LEVEL at 1, RELEASE at 2 (log 10). -/
def portRecord (s : State) (p : Fin 16) : Record :=
  let q := s.port p
  [ (0, some (u8 p.val)), (1, some (u8 q.state.code)), (2, q.bound.map (fun c => u8 (c.val + 1))),
    (3, some (u8 q.maximum)), (4, some (u8 s.settings.queryQuota[p])), (5, some (u8 q.inFlight)),
    (6, some (u8 q.cursor)), (7, some (u8 (flagCode q.continuation.isSome))),
    (8, q.continuation.map (fun k => u8 k.walk.code)), (9, some (u8 q.refresh.code)),
    (10, some (u8 (q.welcome.toNat + 2 * q.level.toNat + 4 * q.release.toNat))),
    (11, some (u8 (flagCode q.levelAwaited))), (12, some (u8 (flagCode q.releaseAwaited))),
    (13, some (u16 q.frameErrors)) ]

/-- R91, R139: TEXT(id). -/
def textRecord (t : TextSlot) : Record :=
  [ (0, some (u16 t.id)), (1, some (u8 t.stateCode)), (2, some (u8 t.bytes.length)), (3, some t.bytes),
    (4, some (u16 t.refs)) ]

/-- R139, POOL. -/
def poolRecord (s : State) : Record :=
  [ (0, some (u16 s.memory.free)), (1, some (u16 s.memory.reserved)), (2, some (u16 s.memory.text)),
    (3, some (u16 s.memory.excludedBlocks.length)), (4, some (u16 s.settings.reservationFloor)),
    (5, some (u16 (reserve s))), (6, some (u16 s.settings.lowWater)),
    (7, some (u8 (flagCode (s.crew.attention.contains .poolLow)))) ]

/-- R139, LINES. -/
def lineRecord (s : State) (n : Fin 8) : Record :=
  let l := s.lines.lines[n]
  [ (0, some (u8 n.val)), (1, some (u8 l.function.code)), (2, some (u8 (LineLevel.code l.activeLevel))),
    (3, some (u8 (LineLevel.code l.filtered))), (4, some (u8 (flagCode l.isActive))), (5, some (u8 (flagCode l.inPattern))),
    (6, some (u8 s.lines.checkTimes[groupOf n].val)) ]

/-- R139, R183: the 49 settings as (setting, index, value). -/
def settingRows (t : Settings) : List (Nat × Option Nat × Nat) :=
  [ (1, none, t.reservationFloor), (2, none, t.lowWater), (3, none, t.receiptDeadline), (4, none, t.pushLimit) ] ++
  all16.map (fun p => (5, some p.val, t.queryQuota[p])) ++
  [ (6, none, t.crewBurst), (7, none, t.lossGrace), (8, none, t.itemCap), (9, some 0, flagCode t.autoNextStop),
    (9, some 1, flagCode t.autoApproaching), (9, some 2, flagCode t.autoAtStop),
    (10, none, flagCode t.arrivalNeedsApproach), (11, none, t.detachDeadline), (12, none, t.stablingDeadline),
    (13, none, t.provisionalHold), (14, none, t.darkPolicy.code), (15, none, flagCode t.doorsEndStabling) ] ++
  all16.map (fun k => (16, some k.val, flagCode t.masked[k])) ++
  [ (17, none, if t.twoLines then 1 else 0) ]

def settingRecord (r : Nat × Option Nat × Nat) : Record :=
  [ (0, some (u8 r.1)), (1, r.2.1.map u8), (2, some (if settingWidth r.1 = 2 then u16 r.2.2 else u8 r.2.2)) ]

/-- R189: IDENTITY. -/
def identityRecord (s : State) : Record :=
  [ (0, some (u8 Config.partCode)), (1, some (u8 Config.revision)),
    (2, some (u16 (Config.poolBlocks - s.memory.excludedBlocks.length))), (3, some (u8 (StartKind.code s.time.startKind))) ]

end Sys2Proof.Machine
end

