-- ==== Sys2Proof/Machine/Lookups.lean ====
section
/-! DEFINITION. The lookup engine (R127 to R142), for queries of the coach ports and READ orders of the crew port. -/

namespace Sys2Proof.Machine

/-! ## Who asks -/

/-- The crew port, or a coach port with the coach it is BOUND to. -/
inductive Asker where
  | crew
  | coach (port coach : Fin 16)
  deriving DecidableEq, Repr

def Asker.isCrew : Asker → Bool
  | .crew => true
  | .coach _ _ => false

/-- The continuation that the asking port holds (R140). -/
def heldContinuation (a : Asker) (s : State) : Option Continuation :=
  match a with
  | .crew => s.crew.continuation
  | .coach p _ => (s.port p).continuation

def setContinuation (a : Asker) (k : Option Continuation) (s : State) : State :=
  match a with
  | .crew => { s with crew.continuation := k }
  | .coach p _ => s.updPort p (fun q => { q with continuation := k })

/-- R130: the answer limit. -/
def answerLimit (a : Asker) (s : State) : Nat :=
  match a with
  | .crew => s.settings.itemCap
  | .coach p _ => min s.settings.itemCap (s.port p).maximum

/-! ## The parameters: locator, portion, selection, then the locator's own, from id 1 in a READ and from id 2, behind
the tag, in a QUERY (11.1, 11.3) -/

/-- Where a request's fields begin. -/
def Asker.base : Asker → Nat
  | .crew => 1
  | .coach _ _ => 2

/-- The locator that fields name from an id, none where it is missing, repeated or not in the table. -/
def locatorOf (base : Nat) (fs : List RawField) : Option Locator :=
  match fs.filter (fun f => f.id == base) with
  | [f] => if f.value.length = 1 then Locator.ofCode (ofBytes f.value) else none
  | _ => none

/-- The table of 6.2: where a locator is taken. -/
def Locator.takenBy (l : Locator) (crew : Bool) : Bool :=
  match l with
  | .seat | .stopRel | .stopAt | .routeWindow | .formation | .resume => true
  | .seatNext | .seatCursor | .notices | .self => !crew
  | .reservation | .booking | .coach | .port | .text | .notice | .pool | .lines | .settings | .identity => crew

def Locator.isStop : Locator → Bool
  | .stopRel | .stopAt | .routeWindow => true
  | _ => false

/-- A locator's own parameters, the first with an id. -/
def Locator.params (l : Locator) (crew : Bool) (id : Nat) : List Param :=
  match l with
  | .seat => [need id 1, ⟨id + 1, 1, 1, crew⟩]
  | .seatCursor | .stopRel | .stopAt | .coach | .port | .notice => [need id 1]
  | .routeWindow => [need id 1, need (id + 1) 1]
  | .reservation | .text => [need id 2]
  | .booking => [need id 4]
  | _ => []

/-- Whether a locator's selection counts (R129). -/
def Locator.selects : Locator → Bool
  | .seatCursor | .resume => false
  | _ => true

/-- The parameters of a request (log 11). -/
def requestParams (a : Asker) (l : Locator) : List Param :=
  (if a.isCrew then [] else [need 1 1]) ++
    [need a.base 1, ⟨a.base + 1, 1, 1, a.isCrew && l.isStop⟩, ⟨a.base + 2, 4, 4, l.selects⟩] ++
    l.params a.isCrew (a.base + 3)

/-- Whether a selection names only fields that the record kind holds on the port (R129). -/
def selectionHeld (a : Asker) (l : Locator) (mask : Nat) : Bool :=
  !l.selects || (List.range 32).all (fun k => !mask.testBit k || k ∈ heldFields a.isCrew l)

def selectionOf (a : Asker) (fs : List RawField) : Nat := num fs (a.base + 2)

/-- R127 step 3. That a coach QUERY with a field that its locator does not use, with one twice or with one of another
length is MALFORMED, as R198 has it of an order, is the model's reading (DEDUCED, log 34, unsafe). -/
def requestMalformed (a : Asker) (l : Locator) (fs : List RawField) : Bool :=
  !l.takenBy a.isCrew || !shaped (requestParams a l) fs || !selectionHeld a l (selectionOf a fs)

/-- The first and the second parameter of the locator. -/
def firstParam (a : Asker) (fs : List RawField) : Nat := num fs (a.base + 3)
def secondParam (a : Asker) (fs : List RawField) : Option Nat := optNum fs (a.base + 4)

/-- An offset in −8..+47. -/
def offsetWithin (n : Nat) : Bool := -8 ≤ offsetOf n && offsetOf n ≤ 47

/-- R127 step 4. -/
def requestOutOfRange (a : Asker) (l : Locator) (fs : List RawField) : Bool :=
  let n := firstParam a fs
  !optWithin 0 2 (optNum fs (a.base + 1)) ||
    (match l with
     | .seat => !within 1 120 n || !optWithin 1 16 (secondParam a fs)
     | .seatCursor => !within 1 120 n
     | .stopRel => !offsetWithin n
     | .stopAt => !within 1 250 n
     | .routeWindow => !offsetWithin n || !optWithin 1 48 (secondParam a fs)
     | .reservation => !within 1 65534 n
     | .coach => !within 1 16 n
     | .port => !within 0 15 n
     | .text => !within 1 511 n
     | .notice => !within 1 24 n
     | _ => false)

/-! ## Answers -/

/-- An answer of items with their generation. -/
def found (generation : Nat) (items : List Item) : Reply := ⟨.ok, generation, [], items⟩

/-- The portion a stop locator is judged for (R128). -/
def portionUsed (a : Asker) (fs : List RawField) (s : State) : Option Portion :=
  match optNum fs (a.base + 1), a with
  | some n, _ => Portion.ofCode n
  | none, .coach _ c => s.portionOf c
  | none, .crew => none

/-- A portion that is not VACANT, for a stop locator (R128). -/
def livePortion (a : Asker) (fs : List RawField) (s : State) : Option Portion :=
  (portionUsed a fs s).filter (fun p => (s.portion p).state != .vacant)

/-- The stop at a place of a portion's served sequence, as an item. -/
def stopItem (a : Asker) (mask : Nat) (s : State) (p : Portion) (place : Nat) (x : Stop) : Item :=
  itemOf (heldFields a.isCrew .stopRel) [0] mask (stopRecord s p place x)

/-- STOP_REL (R136). -/
def answerStopRel (a : Asker) (fs : List RawField) (s : State) : Reply :=
  match livePortion a fs s with
  | none => refuse .unknown
  | some p =>
    let place : Int := (originOf s p : Int) + offsetOf (firstParam a fs)
    if place < 0 then refuse .unknown
    else
      match (servedSequence s.route.stops p)[place.toNat]? with
      | none => refuse .unknown
      | some x => found s.route.gen [stopItem a (selectionOf a fs) s p place.toNat x]

/-- STOP_AT (R136). -/
def answerStopAt (a : Asker) (fs : List RawField) (s : State) : Reply :=
  match livePortion a fs s, findStop s.route.stops (firstParam a fs) with
  | some p, some x =>
    match placeOf (servedSequence s.route.stops p) x.id with
    | none => refuse .notServed
    | some place => found s.route.gen [stopItem a (selectionOf a fs) s p place x]
  | _, _ => refuse .unknown

/-- R134: the seats that a SEAT_NEXT returns: the first seat, how many, whether it wraps, and the cursor after. -/
structure SeatRun where
  first : Nat
  count : Nat
  wrapped : Bool
  cursor : Nat
  deriving DecidableEq, Repr

def seatRun (cursor seats limit : Nat) : SeatRun :=
  let first := if seats < cursor then 1 else cursor
  let count := min limit (seats + 1 - first)
  if seats < first + count then ⟨first, count, true, 1⟩
  else ⟨first, count, decide (seats < cursor), first + count⟩

/-- The mark of a SEAT_NEXT that wraps: a result field with the id behind tag, status and generation (log 12). -/
def wrappedMark : RawField := ⟨4, u8 0⟩

/-- SEAT_NEXT (R134). -/
def answerSeatNext (p c : Fin 16) (mask : Nat) (s : State) : State × Reply :=
  let run := seatRun (s.port p).cursor (((s.coach c).map (·.seatCount)).getD 0) (answerLimit (.coach p c) s)
  (s.updPort p (fun q => { q with cursor := run.cursor }),
    ⟨.ok, s.seatGen c, if run.wrapped then [wrappedMark] else [],
      (List.range' run.first run.count).map (fun n => itemOf (heldFields false .seatNext) [0] mask (seatRecord s c n))⟩)

/-! ## Walks (R130, R140, R141) -/

/-- The reservations that carry a code, by coach, seat and chain order (R139). -/
def bookingList (s : State) (code : BitVec 32) : List Reservation :=
  sortBy (fun r q => r.coach < q.coach || (r.coach == q.coach && (r.seat < q.seat ||
      (r.seat == q.seat && boardPlace s r < boardPlace s q))))
    (s.store.reservations.filter (fun r => r.code == some code))

/-- The defined coaches that FORMATION shows, in increasing order position (R7, R138). -/
def formationList (s : State) : List (Fin 16) :=
  (List.range' 1 16).flatMap (fun position =>
    all16.filter (fun c => (s.coach c).any (fun k => !k.hidden && k.position == position)))

/-- Elements with the number of those before them. -/
def numbered {α : Type} (l : List α) : List (Nat × α) := (List.range l.length).zip l

/-- R137: the window of a served sequence, each stop with its position there, counted from 1. -/
def windowStops (s : State) (p : Portion) (base : Int) (count : Nat) : List (Nat × Stop) :=
  let first : Int := (originOf s p : Int) + base
  ((numbered (servedSequence s.route.stops p)).filter (fun x => first ≤ (x.1 : Int) && (x.1 : Int) < first + count)).map
    (fun x => (x.1 + 1, x.2))

/-- The items of a walk, each with the resume key at which a continuation would begin with it (R140). -/
def walkItems (a : Asker) (w : Walk) (mask : Nat) (s : State) : List (Nat × Item) :=
  let crew := a.isCrew
  match w with
  | .seat c seat =>
    numbered ((seatChain s c seat).map (fun r => itemOf (heldFields crew .seat) [0] mask (reservationRecord s r)))
  | .routeWindow p base count =>
    (windowStops s p base count).map (fun x => (x.1, stopItem a mask s p (x.1 - 1) x.2))
  | .notices =>
    numbered ((orderedNotices s (fun _ l => match a with
      | .coach _ c => inTarget s l.target c
      | .crew => false)).map (fun x => itemOf (heldFields crew .notices) [0] mask (noticeRecord s x.1)))
  | .formation =>
    numbered ((formationList s).map (fun c => itemOf (heldFields crew .formation) [0] mask (coachRecord s c)))
  | .booking code =>
    numbered ((bookingList s code).map (fun r => itemOf (heldFields crew .booking) [0] mask (reservationRecord s r)))
  | .lines => numbered (all8.map (fun n => itemOf (heldFields crew .lines) [0] mask (lineRecord s n)))
  | .settings =>
    numbered ((settingRows s.settings).map (fun r => itemOf (heldFields crew .settings) [0, 1] mask (settingRecord r)))

/-- The generations that a continuation of a walk keeps (R140). -/
def walkGenerations (w : Walk) (s : State) : List Nat :=
  match w with
  | .seat c _ => [s.seatGen c]
  | .routeWindow _ _ _ => [s.route.gen]
  | .notices => [s.notice.gen]
  | .formation => [s.formation.gen]
  | .booking _ => all16.map s.seatGen
  | .lines | .settings => []

/-- The generation that an answer of a walk carries (R131). -/
def walkGeneration (w : Walk) (s : State) : Nat :=
  match w with
  | .booking _ | .lines | .settings => 0
  | w => (walkGenerations w s).headD 0

/-- R130, R141: the walk from a resume key on, up to the answer limit. -/
def serveWalk (a : Asker) (w : Walk) (mask : Nat) (key : Nat) (s : State) : State × Reply :=
  let rest := (walkItems a w mask s).filter (fun x => key ≤ x.1)
  let limit := answerLimit a s
  let items := (rest.take limit).map (·.2)
  match (rest.drop limit).head? with
  | none => (setContinuation a none s, ⟨.ok, walkGeneration w s, [], items⟩)
  | some next =>
    (setContinuation a (some ⟨w, BitVec.ofNat 32 mask, next.1, walkGenerations w s⟩) s,
      ⟨.more, walkGeneration w s, [], items⟩)

/-- CONTINUE (R141). -/
def answerContinue (a : Asker) (s : State) : State × Reply :=
  match heldContinuation a s with
  | none => (s, refuse .unknown)
  | some k =>
    if k.generations = walkGenerations k.walk s then serveWalk a k.walk k.selection.toNat k.key s
    else (setContinuation a none s, ⟨.stale, walkGeneration k.walk s, [], []⟩)

/-- SEAT (R132), for the coach whose seat it is. -/
def answerSeat (a : Asker) (c : Fin 16) (seat mask : Nat) (s : State) : State × Reply :=
  match s.coach c with
  | none => (s, refuse .unknown)
  | some k => if k.seatCount < seat then (s, refuse .range) else serveWalk a (.seat c seat) mask 0 s

/-- The coach a SEAT names, the asking one where it names none (R132). -/
def seatCoach (a : Asker) (fs : List RawField) : Option (Fin 16) :=
  match secondParam a fs, a with
  | some n, _ => coachNo n
  | none, .coach _ c => some c
  | none, .crew => none

/-- One item of a record kind on the asking port. -/
def oneItem (a : Asker) (l : Locator) (keys : List Nat) (fs : List RawField) (r : Record) : List Item :=
  [itemOf (heldFields a.isCrew l) keys (selectionOf a fs) r]

/-- COACH(n) (R138): a VACANT entry's item holds its number and its state, whatever is selected (DEDUCED, log 41, unsafe). -/
def answerCoach (a : Asker) (c : Fin 16) (fs : List RawField) (s : State) : Reply :=
  found s.formation.gen (if (s.coach c).isNone then [itemOf [0, 17] [] 0 (coachRecord s c)]
    else oneItem a .coach [0] fs (coachRecord s c))

/-- R127 step 5: the locator's own rule. -/
def answerLocator (a : Asker) (l : Locator) (fs : List RawField) (s : State) : State × Reply :=
  let mask := selectionOf a fs
  let n := firstParam a fs
  match l, a with
  | .seat, a =>
    match seatCoach a fs with
    | none => (s, refuse .range)
    | some c => answerSeat a c n mask s
  | .seatNext, .coach p c => answerSeatNext p c mask s
  | .seatCursor, .coach p c => (s.updPort p (fun q => { q with cursor := n }), found (s.seatGen c) [])
  | .stopRel, a => (s, answerStopRel a fs s)
  | .stopAt, a => (s, answerStopAt a fs s)
  | .routeWindow, a =>
    match livePortion a fs s with
    | none => (s, refuse .unknown)
    | some p => serveWalk a (.routeWindow p (offsetOf n) ((secondParam a fs).getD 0)) mask 0 s
  | .notices, a => serveWalk a .notices mask 0 s
  | .formation, a => serveWalk a .formation mask 0 s
  | .self, .coach _ c => (s, found s.formation.gen (oneItem a .self [0] fs (coachRecord s c)))
  | .resume, a => answerContinue a s
  | .reservation, a =>
    match s.findReservation n with
    | none => (s, refuse .unknown)
    | some r => (s, found (s.seatGen r.coach) (oneItem a .reservation [0] fs (reservationRecord s r)))
  | .booking, a => serveWalk a (.booking (BitVec.ofNat 32 n)) mask 0 s
  | .coach, a => (s, ((coachNo n).map (fun c => answerCoach a c fs s)).getD (refuse .range))
  | .port, a => (s, ((portNo n).map (fun p => found 0 (oneItem a .port [0] fs (portRecord s p)))).getD (refuse .range))
  | .text, a => (s, ((s.findText n).map (fun t => found 0 (oneItem a .text [0] fs (textRecord t)))).getD (refuse .unknown))
  | .notice, a =>
    (s, ((entryNo n).map (fun e => found s.notice.gen (oneItem a .notice [0] fs (noticeRecord s e)))).getD (refuse .range))
  | .pool, a => (s, found 0 (oneItem a .pool [] fs (poolRecord s)))
  | .lines, a => serveWalk a .lines mask 0 s
  | .settings, a => serveWalk a .settings mask 0 s
  | .identity, a => (s, found 0 (oneItem a .identity [] fs (identityRecord s)))
  | .seatNext, .crew | .seatCursor, .crew | .self, .crew => (s, refuse .malformed)

/-- R127, steps 2 to 5. -/
def engine (a : Asker) (l : Option Locator) (fs : List RawField) (s : State) : State × Reply :=
  match l with
  | none => (setContinuation a none s, refuse .malformed)
  | some l =>
    let s := if l = .resume then s else setContinuation a none s
    if requestMalformed a l fs then (s, refuse .malformed)
    else if requestOutOfRange a l fs then (s, refuse .range)
    else answerLocator a l fs s

/-! ## Queries and READ orders -/

/-- R153: whether a query from a DARK coach is carried out. -/
def darkServed (s : State) (p : Fin 16) (l : Option Locator) : Bool :=
  match s.settings.darkPolicy, l with
  | .refuseAll, _ => false
  | .seatsInDark, some .seat | .seatsInDark, some .seatNext | .seatsInDark, some .seatCursor => true
  | .seatsInDark, some .resume =>
    (s.port p).continuation.any (fun k => match k.walk with
      | .seat _ _ => true
      | _ => false)
  | .seatsInDark, _ => false

/-- Whether a coach's level is DARK. -/
def isDark (s : State) (c : Fin 16) : Bool := (s.coach c).any (fun k => k.level == .dark)

/-- A granted query (R127, R153). A port with a WAITING query is BOUND (R150). -/
def answerQuery (p : Fin 16) (q : Query) (s : State) : State × Reply :=
  match (s.port p).bound with
  | none => (s, refuse .unbound)
  | some c =>
    let l := locatorOf 2 q.fields
    if isDark s c && !darkServed s p l then (s, refuse .dark) else engine (.coach p c) l q.fields s

/-- R125, R153: a coach query is granted, carried out and answered. -/
def carryQuery (p : Fin 16) (q : Query) (s : State) : State :=
  let r := answerQuery p q (grantPort p s)
  answerPort p q.tag r.2 r.1

/-- R125: a READ order is granted, carried out and answered. -/
def carryRead (o : Order) (s : State) : State :=
  let r := engine .crew (locatorOf 1 o.fields) o.fields (grantCrew s)
  answerCrew r.2 r.1

/-- The step of a lookup: the arbiter grants a query or a READ with a locator. Where the next grant is another, the
step is not offered and nothing changes (log 1). -/
def lookupStep (l : Option Locator) (s : State) : State :=
  match nextGrant s with
  | some (.crew o) => if o.kind = 27 ∧ locatorOf 1 o.fields = l then carryRead o s else s
  | some (.coach p q) => if locatorOf 2 q.fields = l then carryQuery p q s else s
  | none => s

/-! ## The commands -/

def execSeat (s : State) : Outcome := .next (lookupStep (some .seat) s)
def execSeatNext (s : State) : Outcome := .next (lookupStep (some .seatNext) s)
def execSeatCursor (s : State) : Outcome := .next (lookupStep (some .seatCursor) s)
def execStopRel (s : State) : Outcome := .next (lookupStep (some .stopRel) s)
def execStopAt (s : State) : Outcome := .next (lookupStep (some .stopAt) s)
def execRouteWindow (s : State) : Outcome := .next (lookupStep (some .routeWindow) s)
def execNotices (s : State) : Outcome := .next (lookupStep (some .notices) s)
def execFormation (s : State) : Outcome := .next (lookupStep (some .formation) s)
def execSelf (s : State) : Outcome := .next (lookupStep (some .self) s)
def execContinue (s : State) : Outcome := .next (lookupStep (some .resume) s)
def execReservation (s : State) : Outcome := .next (lookupStep (some .reservation) s)
def execBooking (s : State) : Outcome := .next (lookupStep (some .booking) s)
def execCoach (s : State) : Outcome := .next (lookupStep (some .coach) s)
def execPort (s : State) : Outcome := .next (lookupStep (some .port) s)
def execText (s : State) : Outcome := .next (lookupStep (some .text) s)
def execNotice (s : State) : Outcome := .next (lookupStep (some .notice) s)
def execPool (s : State) : Outcome := .next (lookupStep (some .pool) s)
def execLines (s : State) : Outcome := .next (lookupStep (some .lines) s)
def execSettings (s : State) : Outcome := .next (lookupStep (some .settings) s)
def execIdentity (s : State) : Outcome := .next (lookupStep (some .identity) s)
def execUnknownLocator (s : State) : Outcome := .next (lookupStep none s)

end Sys2Proof.Machine
end

