-- ==== Sys2Proof/Machine/Links.lean ====
section
/-! DEFINITION. The coach ports: carrier (R144, R145), greeting (R146 to R150), queries (R152), receipts and wake
requests (R157, R158), frame errors (R162). -/

namespace Sys2Proof.Machine

/-! ## Carrier -/

/-- CARRIER_QUALIFIED (R144): a qualification wait ends with the carrier present. -/
def qualify (p : Fin 16) (s : State) : State :=
  let q := s.port p
  if s.running ∧ q.state = .down ∧ q.carrier = true ∧ q.wait.isSome then
    s.updPort p (fun q => { q with state := .greeting, greeted := none, wait := none })
  else s

/-- INCOMING_CARRIER_CHANGE (R144, R145): a port's wait begins with the loss grace as it stands, or is abandoned. A
DOWN port waits while the carrier is there, any other while it is not. -/
def changeCarrier (p : Fin 16) (present : Bool) (s : State) : State :=
  if (s.port p).carrier = present then s
  else
    s.updPort p (fun q => { q with
      carrier := present,
      wait := if s.running then
          if (q.state == .down) == present then some s.settings.lossGrace else none
        else q.wait })

/-- R145, steps 1 to 3. -/
def Port.lost (q : Port) : Port :=
  { q with
    state := .down, greeted := none, bound := none, waiting := [], outbox := [], continuation := none,
    refresh := .clear, welcome := false, level := false, release := false,
    levelAwaited := false, releaseAwaited := false, wait := none }

/-- R145, step 3: the coach of a lost link. -/
def loseCoach (c : Fin 16) (s : State) : State :=
  record (.coachLost c) ((unreachCoach c s).updCoach c (fun k => { k with link := .lost }))

/-- R145, steps 1 to 4. -/
def loseLink (p : Fin 16) (s : State) : State :=
  let t := s.updPort p Port.lost
  match (s.port p).bound with
  | none => t
  | some c =>
    withNoticeNews settlePorts (loseCoach c t)

/-- LINK_LOST (R145): an absence outlasts the loss grace. -/
def takeLoss (p : Fin 16) (s : State) : State :=
  if s.running ∧ (s.port p).state ≠ .down ∧ (s.port p).wait.isSome then loseLink p s else s

/-! ## Frames from the CDC -/

/-- Whether a port receives and sends: it is not DOWN (R144), and the part runs. -/
def receiving (s : State) (p : Fin 16) : Bool := s.running && (s.port p).state != .down

/-- Whether a frame that arrives at a port is not dropped for its carrier (R200): the port receives, and its incoming
carrier is there. -/
abbrev hears (s : State) (p : Fin 16) : Bool := receiving s p && (s.port p).carrier

/-- R162: a dropped frame is counted; the count saturates. -/
def countError (p : Fin 16) (s : State) : State :=
  s.updPort p (fun q => { q with frameErrors := if q.frameErrors < 65535 then q.frameErrors + 1 else 65535 })

/-- R149, steps 1 to 3. -/
def Port.restarted (q : Port) : Port :=
  { q with
    waiting := [], outbox := [], continuation := none, cursor := 1, refresh := .clear,
    level := false, release := false, levelAwaited := false, releaseAwaited := false }

/-- R149: a CDC restart. -/
def restartCdc (p c : Fin 16) (s : State) : State :=
  welcomeCoach p c (restartCoach c (s.updPort p Port.restarted))

/-- R146: a GREET is taken. -/
def takeGreet (p : Fin 16) (label : List Byte) (maximum : Nat) (s : State) : State :=
  let s := s.updPort p (fun q => { q with greeted := some label, maximum := maximum, frameErrors := 0 })
  let out := bindingFor s p label
  match out with
  | .bound c => if (s.port p).has out then restartCdc p c s else takeBinding p out s
  | _ => takeBinding p out s

/-- R152: the query slots in use. -/
def slotsInUse (s : State) : Nat := (all16.map (fun p => (s.port p).waiting.length)).sum

/-- Whether a query in flight has a tag (R152). -/
def Port.tagInFlight (q : Port) (tag : Nat) : Bool :=
  q.waiting.any (fun w => w.tag == tag) || q.outbox.any (fun a => !a.refusal && a.tag == tag)

/-- R152: a refusal made at arrival joins the refusals waiting, or is discarded where four wait. -/
def refuseArrival (p : Fin 16) (tag : Nat) (code : StatusCode) (s : State) : State :=
  s.updPort p (fun q =>
    if (q.outbox.filter (·.refusal)).length < Config.refusalsWaiting then
      { q with outbox := q.outbox ++ [⟨tag, refuse code, true⟩] }
    else q)

/-- R152: what a query is refused with at arrival, if it is. -/
def arrivalRefused (s : State) (p : Fin 16) (tag : Nat) : Option StatusCode :=
  let q := s.port p
  refusal
    [ (q.state != .bound, .unbound),
      (q.tagInFlight tag, .malformed),
      (s.settings.queryQuota[p] ≤ q.inFlight, .busy),
      (Config.querySlots ≤ slotsInUse s, .busy) ]

/-- QUERY (R152): a query is refused at once, or takes a query slot. -/
def takeQuery (p : Fin 16) (tag : Nat) (fields : List RawField) (s : State) : State :=
  match arrivalRefused s p tag with
  | some code => refuseArrival p tag code s
  | none => s.updPort p (fun q => { q with waiting := q.waiting ++ [⟨tag, fields⟩] })

/-- R157, R111: a notice receipt on a BOUND port. -/
def takeNoticeReceipt (p : Fin 16) (entry edition : Nat) (s : State) : State :=
  match (s.port p).bound with
  | none => s
  | some c => takeReceipt c entry edition s

/-- R157: a LEVEL receipt. -/
def takeLevelReceipt (p : Fin 16) (s : State) : State :=
  if (s.port p).state = .bound ∧ (s.port p).levelAwaited = true then
    judgeStabling (s.updPort p (fun q => { q with levelAwaited := false }))
  else s

/-- R15: a RELEASE receipt. -/
def takeReleaseReceipt (p : Fin 16) (s : State) : State :=
  if (s.port p).releaseAwaited = true ∧ (s.port p).bound.any (coachLeaving s) then
    withNoticeNews settleDetach (s.updPort p (fun q => { q with releaseAwaited := false }))
  else s

/-- R158: a WAKE from coach c. -/
def wakeCoach (c : Fin 16) (s : State) : State :=
  match s.coach c with
  | none => s
  | some k =>
    if k.level ≠ .dark then s
    else
      match s.time.mode, k.wakeAllowed with
      | .service, true => applyLevels .full [c] s
      | .service, false => s
      | .stabling, true => returnToService s
      | .stabling, false | .stabled, _ => levelPending c s

/-- WAKE (R158). -/
def takeWake (p : Fin 16) (s : State) : State :=
  match (s.port p).bound with
  | none => s
  | some c => wakeCoach c s

/-! ## The frames of the CDCs (R200) -/

/-- A frame that passes goes to the rule of its kind. A binding that ends with a GREET may complete detaching and
stabling (R15, R192). -/
def takeFrame (p : Fin 16) (f : CoachFrame) (s : State) : State :=
  match f with
  | .greet label maximum _ => withNoticeNews (fun s => settlePorts (takeGreet p label maximum s)) s
  | .query fields => takeQuery p ((queryTag fields).getD 0) fields s
  | .noticeReceipt entry edition => takeNoticeReceipt p entry edition s
  | .levelReceipt => takeLevelReceipt p s
  | .releaseReceipt => takeReleaseReceipt p s
  | .wake => takeWake p s

/-- What one frame among received bytes came to, on a port that receives. -/
def takeReceived (p : Fin 16) (s : State) (r : Received) : State :=
  if receiving s p then
    match r with
    | .nothing => s
    | .dropped => countError p s
    | .passed f _ => takeFrame p f s
  else s

/-- The breaks of the carrier among received bytes: those given, and everywhere where the carrier is absent. -/
def breaksAt (s : State) (p : Fin 16) (bytes : List Byte) (breaks : List Nat) : List Nat :=
  if (s.port p).carrier then breaks else List.range (bytes.length + 1)

/-- R200: the port hunts received bytes for frames; each is counted or taken in its turn. -/
def takeBytes (p : Fin 16) (bytes : List Byte) (breaks : List Nat) (s : State) : State :=
  (receive (breaksAt s p bytes breaks) 0 bytes).foldl (takeReceived p) s

/-- A frame arrives whole at a port: it is taken where it passes, else its bytes are judged as any are: it is dropped and
counted, be it for its shape or for a carrier that is absent within the loss grace, and the hunt goes on behind its sync
byte (R162, R200). A frame that no lengths can say does not arrive (DESIGN CHOICE, log 22, safe). -/
def onFrame (p : Fin 16) (f : CoachFrame) (s : State) : State :=
  if !receiving s p || !f.carried then s
  else if f.fits && (s.port p).carrier then takeFrame p f s
  else takeBytes p f.bytes [] s

/-! ## The commands -/

def execCarrierQualified (port : Fin 16) (s : State) : Outcome := .next (qualify port s)
def execIncomingCarrierChange (port : Fin 16) (present : Bool) (s : State) : Outcome :=
  .next (changeCarrier port present s)
def execLinkLost (port : Fin 16) (s : State) : Outcome := .next (takeLoss port s)

/-- GREET (R146). -/
def execGreet (port : Fin 16) (label : List Byte) (maximum revision : Nat) (s : State) : Outcome :=
  .next (onFrame port (.greet label maximum revision) s)

/-- QUERY (R152); a tag that the port cannot read, or a body that is too long, makes the frame wrong (R200). -/
def execQuery (port : Fin 16) (fields : List RawField) (s : State) : Outcome := .next (onFrame port (.query fields) s)

def execNoticeReceipt (port : Fin 16) (entry edition : Nat) (s : State) : Outcome :=
  .next (onFrame port (.noticeReceipt entry edition) s)

def execLevelReceipt (port : Fin 16) (s : State) : Outcome := .next (onFrame port .levelReceipt s)
def execReleaseReceipt (port : Fin 16) (s : State) : Outcome := .next (onFrame port .releaseReceipt s)
def execWake (port : Fin 16) (s : State) : Outcome := .next (onFrame port .wake s)
def execFrameError (port : Fin 16) (bytes : List Byte) (breaks : List Nat) (s : State) : Outcome :=
  .next (takeBytes port bytes breaks s)

end Sys2Proof.Machine
end

