-- ==== Sys2Proof/Machine/Transmitter.lean ====
section
/-! DEFINITION. What a port's transmitter sends, and in what order (R108, R151, R155, R156, R161). A send is one step
(log 7). -/

namespace Sys2Proof.Machine

/-- R108: the PULL placed first in a coach's pending list. -/
def pullOffered (s : State) (c : Fin 16) : Option (Fin 24) :=
  ((s.listsOf c).pending.find? (fun i => !i.isPush)).map PendingItem.entry

/-- R108: the PUSH offered for a coach, under the push limit. -/
def pushOffered (s : State) (c : Fin 16) : Option (Fin 24 × LiveNotice) :=
  if (s.listsOf c).inFlight.length < s.settings.pushLimit then
    (orderedNotices s (fun e _ => (s.listsOf c).pending.any (fun i => i.isPush && i.entry == e))).head?
  else none

/-- R156: the REFRESH flags of a port that may be sent. -/
def sendable (s : State) (p c : Fin 16) : RefreshFlags :=
  if isDark s c then
    if s.settings.darkPolicy = .seatsInDark then { RefreshFlags.clear with seats := (s.port p).refresh.seats } else .clear
  else (s.port p).refresh

/-- R155, preferences 5 to 7, for the coach a port is BOUND to. -/
def nextForCoach (s : State) (p c : Fin 16) : Option LinkKind :=
  if (pullOffered s c).isSome then some .pull
  else if (pushOffered s c).isSome then some .push
  else if sendable s p c ≠ .clear then some .refresh
  else none

/-- R155: the message that a port whose transmitter is free sends. -/
def nextSend (s : State) (p : Fin 16) : Option LinkKind :=
  let q := s.port p
  if !receiving s p then none
  else if q.welcome then some .welcome
  else if q.level && q.state == .bound then some .level
  else if q.release && q.state == .bound then some .release
  else if !q.outbox.isEmpty then some .answer
  else q.bound.bind (nextForCoach s p)

/-- A message is handed to the transmitter. -/
def handOut (p : Fin 16) (m : LinkMessage) (s : State) : State := s.updPort p (fun q => { q with sent := some m })

/-- R151: the content of WELCOME as the port and the records stand: status, coach number, portion, level, seat, route,
notice and formation generation. -/
def welcomeFields (s : State) (p : Fin 16) : List RawField :=
  match (s.port p).state, (s.port p).bound with
  | .bound, some c =>
    match s.coach c with
    | some k =>
      [⟨1, u8 0⟩, ⟨2, u8 (c.val + 1)⟩, ⟨3, u8 k.portion.code⟩, ⟨4, u8 k.level.code⟩, ⟨5, u16 (s.seatGen c)⟩,
        ⟨6, u16 s.route.gen⟩, ⟨7, u16 s.notice.gen⟩, ⟨8, u16 s.formation.gen⟩]
    | none => [⟨1, u8 2⟩]
  | .mismatched, _ => ⟨1, u8 1⟩ :: presentFields [(2, (s.namedBy p).map (fun c => u8 (c.val + 1)))]
  | _, _ => [⟨1, u8 2⟩]

/-- WELCOME (R151). -/
def sendWelcome (p : Fin 16) (s : State) : State :=
  handOut p ⟨.welcome, welcomeFields s p, []⟩ (s.updPort p (fun q => { q with welcome := false, refresh := .clear }))

/-- LEVEL (R161): the level as it stands when the message is sent. -/
def sendLevel (p : Fin 16) (s : State) : State :=
  let level := ((s.port p).bound.bind s.coach).map (fun k => u8 k.level.code)
  handOut p ⟨.level, presentFields [(1, level)], []⟩ (s.updPort p (fun q => { q with level := false }))

/-- RELEASE (R155). -/
def sendRelease (p : Fin 16) (s : State) : State :=
  handOut p ⟨.release, [], []⟩ (s.updPort p (fun q => { q with release := false }))

/-- The ANSWER that carries a waiting answer: tag, status, generation, results, items (11.3). -/
def answerMessage (a : WaitingAnswer) : LinkMessage :=
  ⟨.answer, [⟨1, u8 a.tag⟩, ⟨2, u8 a.reply.status.code⟩, ⟨3, u16 a.reply.generation⟩] ++ a.reply.results, a.reply.items⟩

/-- ANSWER (R153, R155): the answer made first leaves; its query is in flight no more. -/
def sendAnswer (p : Fin 16) (s : State) : State :=
  match (s.port p).outbox with
  | [] => s
  | a :: rest => handOut p (answerMessage a) (s.updPort p (fun q => { q with outbox := rest }))

/-- PULL (R108). -/
def sendPull (p : Fin 16) (s : State) : State :=
  match (s.port p).bound with
  | none => s
  | some c =>
    match pullOffered s c with
    | none => s
    | some e =>
      handOut p ⟨.pull, [⟨1, u8 (e.val + 1)⟩], []⟩
        (s.updLists c (fun l => { l with pending := l.pending.filter (· ≠ .pull e) }))

/-- The PUSH of a live entry: entry, edition, kind, priority, subject stop, text bytes (R108, 11.3). -/
def pushFields (s : State) (e : Fin 24) (l : LiveNotice) : List RawField :=
  presentFields
    [ (1, some (u8 (e.val + 1))), (2, some (u16 l.edition)), (3, some (u8 l.kind.code)), (4, some (u8 l.priority)),
      (5, l.subject.map u8), (6, some (s.textBytes l.text)) ]

/-- A PUSH of an entry's edition moves from pending to in flight (R108). -/
def CoachLists.push (e : Fin 24) (edition ticks : Nat) (l : CoachLists) : CoachLists :=
  { (l.dropPush e) with inFlight := l.inFlight ++ [⟨e, edition, ticks⟩] }

/-- PUSH (R108): the coach becomes a holder. -/
def sendPush (p : Fin 16) (s : State) : State :=
  match (s.port p).bound with
  | none => s
  | some c =>
    match pushOffered s c with
    | none => s
    | some (e, l) =>
      let t := s.updLists c (CoachLists.push e l.edition s.settings.receiptDeadline)
      handOut p ⟨.push, pushFields s e l, []⟩
        (t.updEntry e (NoticeEntry.mapLive (fun l => { l with holders := l.holders.insert c })))

/-- The flags without those that are sent. -/
def RefreshFlags.without (r sent : RefreshFlags) : RefreshFlags :=
  ⟨r.seats && !sent.seats, r.route && !sent.route, r.formation && !sent.formation⟩

/-- REFRESH (R156): it carries and clears every flag that may be sent. -/
def sendRefresh (p : Fin 16) (s : State) : State :=
  match (s.port p).bound with
  | none => s
  | some c =>
    handOut p ⟨.refresh, [⟨1, u8 (sendable s p c).code⟩], []⟩
      (s.updPort p (fun q => { q with refresh := q.refresh.without (sendable s p c) }))

/-- The step of a send: the transmitter picks a message of a kind. Where it picks another, the step is not offered and
nothing changes (log 1). -/
def sendStep (kind : LinkKind) (send : Fin 16 → State → State) (p : Fin 16) (s : State) : State :=
  if nextSend s p = some kind then send p s else s

/-! ## The commands -/

def execWelcome (port : Fin 16) (s : State) : Outcome := .next (sendStep .welcome sendWelcome port s)
def execLevel (port : Fin 16) (s : State) : Outcome := .next (sendStep .level sendLevel port s)
def execRelease (port : Fin 16) (s : State) : Outcome := .next (sendStep .release sendRelease port s)
def execAnswer (port : Fin 16) (s : State) : Outcome := .next (sendStep .answer sendAnswer port s)
def execPull (port : Fin 16) (s : State) : Outcome := .next (sendStep .pull sendPull port s)
def execPush (port : Fin 16) (s : State) : Outcome := .next (sendStep .push sendPush port s)
def execRefresh (port : Fin 16) (s : State) : Outcome := .next (sendStep .refresh sendRefresh port s)

end Sys2Proof.Machine
end

