-- ==== Sys2Proof/Machine/Dispatch.lean ====
section
/-! DEFINITION. exec: one arm for each command, each a direct call of its meaning. -/

namespace Sys2Proof.Machine

def exec (i : Instr) (s : State) : Host.Outcome State Fault Refusal :=
  match i with
  | .powerOn strap => Sys2Proof.Machine.execPowerOn strap s
  | .resetNAsserted => Sys2Proof.Machine.execResetNAsserted s
  | .resetNReleased => Sys2Proof.Machine.execResetNReleased s
  | .startUpEnd failed => Sys2Proof.Machine.execStartUpEnd failed s
  | .orderTransfer bytes => Sys2Proof.Machine.execOrderTransfer bytes s
  | .fetch clocked => Sys2Proof.Machine.execFetch clocked s
  | .refetch clocked => Sys2Proof.Machine.execRefetch clocked s
  | .unknownTransfer first clocked => Sys2Proof.Machine.execUnknownTransfer first clocked s
  | .unknownOrder => Sys2Proof.Machine.execUnknownOrder s
  | .setCoach => Sys2Proof.Machine.execSetCoach s
  | .removeCoach => Sys2Proof.Machine.execRemoveCoach s
  | .attach => Sys2Proof.Machine.execAttach s
  | .detach => Sys2Proof.Machine.execDetach s
  | .setLevel => Sys2Proof.Machine.execSetLevel s
  | .putStop => Sys2Proof.Machine.execPutStop s
  | .removeStop => Sys2Proof.Machine.execRemoveStop s
  | .cancelStop => Sys2Proof.Machine.execCancelStop s
  | .reinstateStop => Sys2Proof.Machine.execReinstateStop s
  | .setDelay => Sys2Proof.Machine.execSetDelay s
  | .start => Sys2Proof.Machine.execStart s
  | .approach => Sys2Proof.Machine.execApproach s
  | .arrive => Sys2Proof.Machine.execArrive s
  | .releaseDoors => Sys2Proof.Machine.execReleaseDoors s
  | .depart => Sys2Proof.Machine.execDepart s
  | .book => Sys2Proof.Machine.execBook s
  | .confirm => Sys2Proof.Machine.execConfirm s
  | .cancel => Sys2Proof.Machine.execCancel s
  | .cancelCode => Sys2Proof.Machine.execCancelCode s
  | .move => Sys2Proof.Machine.execMove s
  | .replace => Sys2Proof.Machine.execReplace s
  | .putText => Sys2Proof.Machine.execPutText s
  | .dropText => Sys2Proof.Machine.execDropText s
  | .issue => Sys2Proof.Machine.execIssue s
  | .amend => Sys2Proof.Machine.execAmend s
  | .withdraw => Sys2Proof.Machine.execWithdraw s
  | .set => Sys2Proof.Machine.execSet s
  | .acknowledge => Sys2Proof.Machine.execAcknowledge s
  | .enterStabled => Sys2Proof.Machine.execEnterStabled s
  | .leaveStabled => Sys2Proof.Machine.execLeaveStabled s
  | .journeyClear => Sys2Proof.Machine.execJourneyClear s
  | .seat => Sys2Proof.Machine.execSeat s
  | .seatNext => Sys2Proof.Machine.execSeatNext s
  | .seatCursor => Sys2Proof.Machine.execSeatCursor s
  | .stopRel => Sys2Proof.Machine.execStopRel s
  | .stopAt => Sys2Proof.Machine.execStopAt s
  | .routeWindow => Sys2Proof.Machine.execRouteWindow s
  | .notices => Sys2Proof.Machine.execNotices s
  | .formation => Sys2Proof.Machine.execFormation s
  | .self => Sys2Proof.Machine.execSelf s
  | .continue => Sys2Proof.Machine.execContinue s
  | .reservation => Sys2Proof.Machine.execReservation s
  | .booking => Sys2Proof.Machine.execBooking s
  | .coach => Sys2Proof.Machine.execCoach s
  | .port => Sys2Proof.Machine.execPort s
  | .text => Sys2Proof.Machine.execText s
  | .notice => Sys2Proof.Machine.execNotice s
  | .pool => Sys2Proof.Machine.execPool s
  | .lines => Sys2Proof.Machine.execLines s
  | .settings => Sys2Proof.Machine.execSettings s
  | .identity => Sys2Proof.Machine.execIdentity s
  | .carrierQualified port => Sys2Proof.Machine.execCarrierQualified port s
  | .linkLost port => Sys2Proof.Machine.execLinkLost port s
  | .greet port label maximum revision => Sys2Proof.Machine.execGreet port label maximum revision s
  | .query port fields => Sys2Proof.Machine.execQuery port fields s
  | .noticeReceipt port entry edition => Sys2Proof.Machine.execNoticeReceipt port entry edition s
  | .levelReceipt port => Sys2Proof.Machine.execLevelReceipt port s
  | .releaseReceipt port => Sys2Proof.Machine.execReleaseReceipt port s
  | .wake port => Sys2Proof.Machine.execWake port s
  | .frameError port bytes breaks => Sys2Proof.Machine.execFrameError port bytes breaks s
  | .welcome port => Sys2Proof.Machine.execWelcome port s
  | .level port => Sys2Proof.Machine.execLevel port s
  | .release port => Sys2Proof.Machine.execRelease port s
  | .answer port => Sys2Proof.Machine.execAnswer port s
  | .pull port => Sys2Proof.Machine.execPull port s
  | .push port => Sys2Proof.Machine.execPush port s
  | .refresh port => Sys2Proof.Machine.execRefresh port s
  | .tick => Sys2Proof.Machine.execTick s
  | .provisionalHoldExpiry coach => Sys2Proof.Machine.execProvisionalHoldExpiry coach s
  | .lifetimeExpiry entry => Sys2Proof.Machine.execLifetimeExpiry entry s
  | .receiptDeadlineExpiry entry => Sys2Proof.Machine.execReceiptDeadlineExpiry entry s
  | .pushTimeout coach => Sys2Proof.Machine.execPushTimeout coach s
  | .detachDeadlineExpiry => Sys2Proof.Machine.execDetachDeadlineExpiry s
  | .stablingDeadlineExpiry => Sys2Proof.Machine.execStablingDeadlineExpiry s
  | .lineInputChange line level => Sys2Proof.Machine.execLineInputChange line level s
  | .filteredChange line => Sys2Proof.Machine.execFilteredChange line s
  | .lineArrive => Sys2Proof.Machine.execLineArrive s
  | .lineDepart => Sys2Proof.Machine.execLineDepart s
  | .lineApproach => Sys2Proof.Machine.execLineApproach s
  | .lineReleaseDoors side => Sys2Proof.Machine.execLineReleaseDoors side s
  | .couplerEvent portion active => Sys2Proof.Machine.execCouplerEvent portion active s
  | .doorEvent => Sys2Proof.Machine.execDoorEvent s
  | .stablingRequest => Sys2Proof.Machine.execStablingRequest s
  | .incomingCarrierChange port present => Sys2Proof.Machine.execIncomingCarrierChange port present s
  | .unknownLocator => Sys2Proof.Machine.execUnknownLocator s

end Sys2Proof.Machine
end

