-- ==== Sys2Proof/Safety.lean ====
section
/-! DEFINITION. What the statements speak of: the parts of the state and what a step leaves alone, who is granted and
answered, and the laws that every step keeps. -/

namespace Sys2Proof.Machine

/-! ## Frames -/

/-- The parts of the state that a frame tells apart. -/
inductive Part where
  | coaches | portions | formationGen | stops | routeGen | reservations | handleCounter | seatGens | counts | texts
  | entries | lists | noticeGen | arbiter | ports | slots | lastFetched | crewContinuation | attention | out
  | lines | time | settings | pending
  deriving DecidableEq, Repr

/-- A part holds in t what it holds in s. -/
def Part.same (s t : State) : Part → Prop
  | .coaches => t.formation.coaches = s.formation.coaches
  | .portions => t.formation.portions = s.formation.portions
  | .formationGen => t.formation.gen = s.formation.gen
  | .stops => t.route.stops = s.route.stops
  | .routeGen => t.route.gen = s.route.gen
  | .reservations => t.store.reservations = s.store.reservations
  | .handleCounter => t.store.handleCounter = s.store.handleCounter
  | .seatGens => t.store.seatGens = s.store.seatGens
  | .counts => t.memory.free = s.memory.free ∧ t.memory.reserved = s.memory.reserved ∧
      t.memory.text = s.memory.text ∧ t.memory.excludedBlocks = s.memory.excludedBlocks
  | .texts => t.memory.texts = s.memory.texts
  | .entries => t.notice.entries = s.notice.entries
  | .lists => t.notice.lists = s.notice.lists
  | .noticeGen => t.notice.gen = s.notice.gen
  | .arbiter => t.arbiter = s.arbiter
  | .ports => t.ports = s.ports
  | .slots => t.crew.slots = s.crew.slots
  | .lastFetched => t.crew.lastFetched = s.crew.lastFetched
  | .crewContinuation => t.crew.continuation = s.crew.continuation
  | .attention => t.crew.attention = s.crew.attention
  | .out => t.crew.out = s.crew.out
  | .lines => t.lines = s.lines
  | .time => t.time = s.time
  | .settings => t.settings = s.settings
  | .pending => t.pending = s.pending

/-- Every part but those named holds in t what it holds in s. -/
def changes (parts : List Part) (s t : State) : Prop := ∀ x, x ∉ parts → x.same s t

/-- Every port but one holds in t what it holds in s. -/
def otherPorts (p : Fin 16) (s t : State) : Prop := ∀ q, q ≠ p → t.port q = s.port q

/-- Only the record of port p has changed, and it has become q. -/
def portBecomes (p : Fin 16) (q : Port) (s t : State) : Prop :=
  t.port p = q ∧ otherPorts p s t ∧ changes [.ports] s t

/-- The parts that detaching completion may change (R18 to R21, R192). -/
def detachParts : List Part :=
  [.coaches, .portions, .formationGen, .stops, .routeGen, .reservations, .seatGens, .counts, .texts, .entries, .lists,
    .noticeGen, .ports, .attention, .time]

/-- The parts that a change of levels or bindings may change (R147, R150, R160). -/
def levelParts : List Part := [.coaches, .ports, .entries, .lists, .noticeGen, .attention]

/-- The parts that the retirement of reservations may change (R56, R57). -/
def retireParts : List Part := [.reservations, .seatGens, .ports, .counts, .texts, .attention]

/-- The parts that starting or freeing a notice may change (R98, R102). -/
def noticeParts : List Part := [.entries, .lists, .noticeGen, .counts, .texts, .attention]

/-- The parts that a progress event may change (R43 to R48). -/
def progressParts : List Part := [.portions, .routeGen, .ports] ++ noticeParts

/-- The parts that an order may change beyond the grant and the answer. -/
def orderParts : Instr → List Part
  | .setCoach => levelParts ++ [.formationGen, .reservations, .seatGens, .time]
  | .removeCoach => levelParts ++ [.formationGen, .counts, .texts, .time]
  | .attach => [.portions, .formationGen, .ports]
  | .detach | .journeyClear => detachParts
  | .setLevel => levelParts
  | .putStop | .cancelStop | .reinstateStop => .stops :: progressParts
  | .removeStop => [.stops, .routeGen, .ports, .counts, .texts, .attention]
  | .setDelay => [.stops, .routeGen, .ports]
  | .start | .arrive => progressParts ++ retireParts
  | .approach | .depart => progressParts
  | .releaseDoors => [.portions, .routeGen, .ports, .attention]
  | .book | .replace => .handleCounter :: retireParts
  | .confirm | .move => [.reservations, .seatGens, .ports]
  | .cancel | .cancelCode => retireParts
  | .putText | .dropText => [.counts, .texts, .attention]
  | .issue | .amend | .withdraw => noticeParts
  | .set => [.settings, .attention, .lists, .ports, .lines]
  | .acknowledge => [.attention]
  | .enterStabled | .leaveStabled => .time :: levelParts
  | _ => []

/-- The kind of the order that a command grants (R179). -/
def orderKind : Instr → Option Nat
  | .setCoach => some 1
  | .removeCoach => some 2
  | .attach => some 3
  | .detach => some 4
  | .setLevel => some 5
  | .putStop => some 6
  | .removeStop => some 7
  | .cancelStop => some 8
  | .reinstateStop => some 9
  | .setDelay => some 10
  | .start => some 11
  | .approach => some 12
  | .arrive => some 13
  | .releaseDoors => some 14
  | .depart => some 15
  | .book => some 16
  | .confirm => some 17
  | .cancel => some 18
  | .cancelCode => some 19
  | .move => some 20
  | .replace => some 21
  | .putText => some 22
  | .dropText => some 23
  | .issue => some 24
  | .amend => some 25
  | .withdraw => some 26
  | .set => some 28
  | .acknowledge => some 29
  | .enterStabled => some 30
  | .leaveStabled => some 31
  | .journeyClear => some 32
  | _ => none

/-- The command that grants a lookup with a locator. -/
def lookupCommand : Locator → Instr
  | .seat => .seat
  | .seatNext => .seatNext
  | .seatCursor => .seatCursor
  | .stopRel => .stopRel
  | .stopAt => .stopAt
  | .routeWindow => .routeWindow
  | .notices => .notices
  | .formation => .formation
  | .self => .self
  | .resume => .continue
  | .reservation => .reservation
  | .booking => .booking
  | .coach => .coach
  | .port => .port
  | .text => .text
  | .notice => .notice
  | .pool => .pool
  | .lines => .lines
  | .settings => .settings
  | .identity => .identity

/-- The parts that a command may change. -/
def touches : Instr → List Part
  | .powerOn _ =>
    detachParts ++ [.handleCounter, .arbiter, .slots, .lastFetched, .crewContinuation, .out, .lines, .settings]
  | .resetNAsserted => [.time, .out]
  | .resetNReleased =>
    [.coaches, .reservations, .entries, .lists, .arbiter, .ports, .slots, .lastFetched, .crewContinuation, .attention,
      .out, .lines, .time]
  | .startUpEnd _ => .lines :: detachParts
  | .orderTransfer _ => [.slots, .out]
  | .fetch _ => [.slots, .lastFetched, .out]
  | .refetch _ | .unknownTransfer _ _ => [.out]
  | .unknownOrder => [.arbiter, .slots]
  | .seat | .stopRel | .stopAt | .routeWindow | .formation | .continue | .unknownLocator | .seatNext | .seatCursor
  | .notices | .self | .reservation | .booking | .coach | .port | .text | .notice | .pool | .lines | .settings
  | .identity => [.arbiter, .slots, .crewContinuation, .ports]
  | .query _ fields => if queryShape fields then [.ports] else detachParts
  | .carrierQualified _ | .welcome _ | .level _ | .release _ | .answer _ | .refresh _
  | .incomingCarrierChange _ _ => [.ports]
  | .linkLost _ | .greet _ _ _ _ | .releaseReceipt _ | .frameError _ _ _ | .tick | .detachDeadlineExpiry => detachParts
  | .noticeReceipt _ entry edition =>
    if receiptShape entry edition then [.entries, .lists, .attention, .ports] else detachParts
  | .levelReceipt _ => [.ports, .time, .attention]
  | .wake _ => .time :: levelParts
  | .pull _ => [.ports, .lists]
  | .push _ => [.ports, .lists, .entries]
  | .provisionalHoldExpiry _ => retireParts
  | .lifetimeExpiry _ => noticeParts
  | .receiptDeadlineExpiry _ => [.entries, .attention]
  | .pushTimeout _ => [.lists]
  | .stablingDeadlineExpiry => [.time, .attention]
  | .lineInputChange _ _ | .filteredChange _ => [.lines, .attention]
  | .lineArrive => .lines :: (progressParts ++ retireParts)
  | .lineDepart | .lineApproach | .lineReleaseDoors _ => .lines :: progressParts
  | .couplerEvent _ _ => .lines :: detachParts
  | .doorEvent | .stablingRequest => [.lines, .time] ++ levelParts
  | i => [.arbiter, .slots] ++ orderParts i

/-! ## Grants and answers -/

/-- The crew port is granted an order of a kind next. -/
abbrev grantedOrder (s : State) (o : Order) (kind : Nat) : Prop := nextGrant s = some (.crew o) ∧ o.kind = kind

/-- From s to t the granted order was carried out and answered with r (R124, R125); beyond the grant and the answer only
the parts named may have changed. -/
def answersOrder (s t : State) (r : Reply) (parts : List Part) : Prop :=
  t.arbiter = (grantCrew s).arbiter ∧
    t.crew.slots = moveSlot .executing (.answerReady r) (moveSlot .taken .executing s.crew.slots) ∧
    changes (.arbiter :: .slots :: parts) s t

/-- Port p is granted a query next, asked by coach c, whose display is served: it is not DARK, or the dark answer policy
lets the query through (R153). -/
abbrev grantedQuery (s : State) (p c : Fin 16) (q : Query) : Prop :=
  nextGrant s = some (.coach p q) ∧ (s.port p).bound = some c ∧
    (isDark s c = true → darkServed s p (locatorOf 2 q.fields) = true)

/-- From s to t the query of port p was granted and answered with r, which leaves the port as given but for its queries;
no other record has changed (R125, R127). -/
def answersQuery (s t : State) (p : Fin 16) (tag : Nat) (r : Reply) (q : Port) : Prop :=
  t.arbiter = ⟨p, 0⟩ ∧
    t.port p = { q with waiting := (s.port p).waiting.drop 1, outbox := (s.port p).outbox ++ [⟨tag, r, false⟩] } ∧
    otherPorts p s t ∧ changes [.arbiter, .ports] s t

/-- Someone asks: a READ order or a query with these fields and this tag is granted next. -/
def asks (s : State) (a : Asker) (tag : Nat) (fs : List RawField) : Prop :=
  match a with
  | .crew => ∃ o, grantedOrder s o 27 ∧ o.tag = tag ∧ o.fields = fs
  | .coach p c => grantedQuery s p c ⟨tag, fs⟩

/-- The asker is answered with r, and its port holds the continuation k after it (R140). -/
def answered (s t : State) (a : Asker) (tag : Nat) (r : Reply) (k : Option Continuation) : Prop :=
  match a with
  | .crew => answersOrder s t r [.crewContinuation] ∧ t.crew.continuation = k
  | .coach p _ => answersQuery s t p tag r { s.port p with continuation := k }

/-- A request of the asker names locator l and passes steps 3 and 4 of R127. -/
abbrev wellAsked (a : Asker) (l : Locator) (fs : List RawField) : Prop :=
  locatorOf a.base fs = some l ∧ requestMalformed a l fs = false ∧ requestOutOfRange a l fs = false

/-- The walk that a well asked request begins (R130, R132, R137 to R139). -/
def walkAsked (a : Asker) (l : Locator) (fs : List RawField) (s : State) : Option Walk :=
  match l with
  | .seat => (seatCoach a fs).bind (fun c =>
      if (s.coach c).any (fun k => firstParam a fs ≤ k.seatCount) then some (.seat c (firstParam a fs)) else none)
  | .routeWindow => (livePortion a fs s).map (fun p =>
      .routeWindow p (offsetOf (firstParam a fs)) ((secondParam a fs).getD 0))
  | .notices => some .notices
  | .formation => some .formation
  | .booking => some (.booking (BitVec.ofNat 32 (firstParam a fs)))
  | .lines => some .lines
  | .settings => some .settings
  | _ => none

/-! ## What the results are stated with -/

/-- Coach c's defined entry names port p. -/
def State.names (s : State) (c p : Fin 16) : Bool := (s.coach c).any (fun k => k.port == some p)

/-- A port with REFRESH flags set if it is BOUND (R156). -/
def Port.refreshed (q : Port) (f : RefreshFlags → RefreshFlags) : Port :=
  if q.state = .bound then { q with refresh := f q.refresh } else q

/-- R11: the formation generation has advanced once, and of the ports only the FORMATION flags have changed. -/
def formationNews (s t : State) : Prop :=
  t.formation.gen = nextCount s.formation.gen ∧
    ∀ q, t.port q = (s.port q).refreshed (fun r => { r with formation := true })

/-- R28: the route generation has advanced once, and of the ports only the ROUTE flags have changed. -/
def routeNews (s t : State) : Prop :=
  t.route.gen = nextCount s.route.gen ∧ ∀ q, t.port q = (s.port q).refreshed (fun r => { r with route := true })

/-- A port BOUND to a coach of a list. -/
def Port.boundIn (q : Port) (cs : List (Fin 16)) : Bool := q.state == .bound && cs.any (fun c => q.bound == some c)

/-- R57: the seat generations of some coaches have advanced once, and of the ports only the SEATS flags have changed. -/
def seatNews (cs : List (Fin 16)) (s t : State) : Prop :=
  (∀ c, t.seatGen c = if c ∈ cs then nextCount (s.seatGen c) else s.seatGen c) ∧
    ∀ q, t.port q = if (s.port q).boundIn cs then { s.port q with refresh.seats := true } else s.port q

/-- Every portion but one is as it was. -/
def otherPortions (p : Portion) (s t : State) : Prop := ∀ q, q ≠ p → t.portion q = s.portion q

/-- Every coach entry but one is as it was. -/
def otherCoaches (c : Fin 16) (s t : State) : Prop := ∀ d, d ≠ c → t.coach d = s.coach d

/-- Every notice entry but one is as it was. -/
def otherEntries (e : Fin 24) (s t : State) : Prop := ∀ f, f ≠ e → t.entry f = s.entry f

/-- What a text slot is after the release of a reference (R88, R90). -/
def TextSlot.released (x : TextSlot) : Option TextSlot :=
  if x.retiring = true ∧ x.refs ≤ 1 then none else some { x with refs := x.refs - 1 }

/-- R88: some slots are as they were, but for one that has lost a reference. -/
def textReleased (id : Nat) (s t : State) : Prop :=
  ∀ u, t.findText u = if u = id then (s.findText u).bind TextSlot.released else s.findText u

/-- R40: what a heading correction over a stop table makes of a portion. -/
def headingOf (stops : List Stop) (p : Portion) (r : PortionRecord) : PortionRecord :=
  if r.state = .attached ∧ (r.phase = some .enRoute ∨ r.phase = some .approaching) then
    match r.lastArrived.bind (nextStop stops p) with
    | none => r
    | some next => if r.current = some next then r else { r with phase := some .enRoute, current := some next }
  else r

/-- The portion stands at a stop of kind SPLIT (R12 check 6). -/
def standsAtSplit (s : State) (p : Portion) : Bool :=
  ((s.portion p).phase == some .atPlatform || (s.portion p).phase == some .doorsReleased) &&
    ((s.portion p).current.bind (findStop s.route.stops)).any (fun x => x.kind == .split)

/-- R43: the record of a portion that has arrived at a stop. -/
def arrivedRecord (s : State) (p : Portion) (stop : Nat) : PortionRecord :=
  { s.portion p with
    current := some stop, lastArrived := some stop,
    phase := some (if nextStop s.route.stops p stop = none then .terminated else .atPlatform) }

/-- R72: the reservations that a sweep of a portion at a stop leaves. -/
def sweptReservations (s : State) (p : Portion) (stop : Nat) : List Reservation :=
  (s.store.reservations.filter (fun r => !sweepEnds s p stop r)).map (fun r =>
    if runsIn s p r then { r with status := sweepStatus s.route.stops stop r } else r)

/-- R43: p has arrived at a stop: its record, the sweep with the seat generations it advances, ARRIVED, the route
generation. -/
def arrived (p : Portion) (stop : Nat) (s t : State) : Prop :=
  t.portion p = arrivedRecord s p stop ∧ otherPortions p s t ∧ t.store.reservations = sweptReservations s p stop ∧
    (∀ c, t.seatGen c = if c ∈ sweepTouched s p stop then nextCount (s.seatGen c) else s.seatGen c) ∧
    .arrived p ∈ t.crew.attention ∧ t.route.gen = nextCount s.route.gen

/-- R18 to R21: p and what belonged to it are gone, and the route generation has advanced; the port that a coach of p
named has been left as `left` has it. -/
structure PortionGone (p : Portion) (left : Port → Port) (s t : State) : Prop where
  record : t.portion p = .vacant
  others : otherPortions p s t
  coaches : ∀ c, t.coach c = if s.portionOf c = some p then none else s.coach c
  reservations : t.store.reservations = s.store.reservations.filter (fun r => !runsIn s p r)
  stops : t.route.stops = (stopsWithout p s.route.stops).filter (fun x => !x.portions.isEmpty)
  stopNotice : (t.entry p.stopEntry).live = none
  targets : ∀ e, e.val < 21 → (t.entry e).live.all (fun l => !l.target.holds p && !l.target.isEmpty) = true
  lists : ∀ c, s.portionOf c = some p → t.listsOf c = .empty
  ports : ∀ c q, s.portionOf c = some p → s.names c q = true → t.port q = left (s.port q)
  route : t.route.gen = nextCount s.route.gen

/-- A live entry in which an edition has just begun (R98): the fields given, the edition from the counter, the start
from the tick count, DELIVERING with the receipt deadline, delivery to the coaches reachable for the target. -/
def begun (s : State) (e : Fin 24) (l : LiveNotice) : NoticeEntry :=
  { counter := nextCount (s.entry e).counter,
    live := some { l with
      edition := (s.entry e).counter, start := s.time.tickCount, state := .delivering s.settings.receiptDeadline,
      receipted := CoachSet.none, delivery := tabulate (fun c => reachable s l.target c) } }

/-- R98, R107: every coach of the delivery set has the edition's PUSH pending, placed last; the others' lists are as
they were. -/
def pushesPlaced (e : Fin 24) (l : LiveNotice) (s t : State) : Prop :=
  ∀ c, t.listsOf c = if reachable s l.target c then (s.listsOf c).place (.push e (s.entry e).counter) else s.listsOf c

/-- R102, R107: no pending PUSH of an entry is left, and its holders have a PULL pending. -/
def pullsPlaced (e : Fin 24) (l : LiveNotice) (s t : State) : Prop :=
  ∀ c, t.listsOf c =
    if l.holders[c] then ((s.listsOf c).dropPush e).place (.pull e) else (s.listsOf c).dropPush e

/-- R102: an entry has been freed with pulls. -/
def freedWithPulls (e : Fin 24) (l : LiveNotice) (s t : State) : Prop :=
  t.entry e = ⟨(s.entry e).counter, none⟩ ∧ otherEntries e s t ∧ pullsPlaced e l s t ∧ textReleased l.text s t

/-- R50, R105: whether the route unit's request for a stop notice of a kind at stop x begins an edition: the kind is
enabled, and the stop's name slot is the entry's text already or takes a new reference. -/
def stopNoticeBegins (s : State) (p : Portion) (kind : NoticeKind) (x : Stop) : Bool :=
  s.settings.autoStop kind &&
    ((s.entry p.stopEntry).live.any (fun l => l.text == x.name) || (s.findText x.name).any (fun u => !u.retiring))

/-- R105: the notice of such a request, before its edition begins; the holders of the entry are kept (R98). -/
def stopNoticeOf (s : State) (p : Portion) (kind : NoticeKind) (x : Stop) : LiveNotice :=
  { kind := kind, priority := 6, target := .portions (.single p), text := x.name, subject := some x.id,
    lifetime := none, edition := 0, start := 0, state := .partly, delivery := CoachSet.none,
    receipted := CoachSet.none, holders := ((s.entry p.stopEntry).live.map (·.holders)).getD CoachSet.none }

/-- R105: the portion's stop notice entry after such a request: an edition has begun in it, or it is FREE. -/
def askedEntry (s : State) (p : Portion) (kind : NoticeKind) (x : Stop) : NoticeEntry :=
  if stopNoticeBegins s p kind x then begun s p.stopEntry (stopNoticeOf s p kind x)
  else ⟨(s.entry p.stopEntry).counter, none⟩

/-- R50, R96, R105: what such a request leads to when it is the only thing that happens to the notices. -/
def stopNoticeAsked (p : Portion) (kind : NoticeKind) (x : Stop) (s t : State) : Prop :=
  t.entry p.stopEntry = askedEntry s p kind x ∧ otherEntries p.stopEntry s t ∧
    (stopNoticeBegins s p kind x = true →
      pushesPlaced p.stopEntry (stopNoticeOf s p kind x) s t ∧ t.notice.gen = nextCount s.notice.gen) ∧
    (stopNoticeBegins s p kind x = false →
      (∀ l, (s.entry p.stopEntry).live = some l →
        pullsPlaced p.stopEntry l s t ∧ t.notice.gen = nextCount s.notice.gen) ∧
      ((s.entry p.stopEntry).live = none → t.notice = s.notice))

/-- The entries of general notices are as they were. -/
def generalEntries (s t : State) : Prop := ∀ e, e.val < 21 → t.entry e = s.entry e

/-- A stop change that was taken: the table it leaves, the headings corrected over it with a NEXT_STOP request for each
portion that turned (R40), the route generation advanced. -/
def stopsBecome (stops : List Stop) (s t : State) : Prop :=
  t.route.stops = stops ∧ (∀ p, t.portion p = headingOf stops p (s.portion p)) ∧
    t.route.gen = nextCount s.route.gen ∧ generalEntries s t ∧
    ∀ p, (t.portion p = s.portion p → t.entry p.stopEntry = s.entry p.stopEntry) ∧
      ∀ x, t.portion p ≠ s.portion p → (t.portion p).current.bind (findStop stops) = some x →
        t.entry p.stopEntry = askedEntry s p .nextStop x

/-- R112, R114, R116: a live notice after the coaches of a set have gone DARK together. -/
def LiveNotice.darkened (gone : CoachSet) (l : LiveNotice) : LiveNotice :=
  let left := { l with delivery := l.delivery.without gone, receipted := l.receipted.without gone }
  match l.state with
  | .delivering _ => if left.complete then { left with state := .delivered } else left
  | .delivered => if left.delivery.isEmpty then { left with state := .partly } else left
  | .partly => left

/-- R116, R160, R191: from s to t some coaches have gone DARK together: their pending PUSHes are gone, and the entries
they leave are judged once, behind all of them (DEDUCED, log 28). -/
def wentDarkTogether (gone : CoachSet) (s t : State) : Prop :=
  (∀ c, t.listsOf c =
    if gone[c] then { s.listsOf c with pending := (s.listsOf c).pending.filter (fun i => !i.isPush) } else s.listsOf c) ∧
  (∀ e, t.entry e = if gone.isEmpty then s.entry e else (s.entry e).mapLive (LiveNotice.darkened gone)) ∧
  ∀ e, .noticeDelivered e ∈ t.crew.attention ↔
    .noticeDelivered e ∈ s.crew.attention ∨
      ((s.entry e).live.any (fun l => l.state != .delivered) && (t.entry e).live.any (fun l => l.state == .delivered)) = true

/-- The coaches of a list that are not DARK. -/
def litCoaches (s : State) (cs : List (Fin 16)) : CoachSet :=
  tabulate (fun c => cs.contains c && (s.coach c).any (fun k => k.level != .dark))

/-- The shape of each order's parameters (11.1); ISSUE, SET and the rest add what their rules add. -/
def orderShape : Instr → List Param
  | .setCoach => coachParams
  | .removeCoach | .attach | .detach | .removeStop | .cancelStop | .reinstateStop | .approach | .arrive | .depart
  | .withdraw => [need 1 1]
  | .setLevel => [may 1 1, may 2 1, need 3 1]
  | .putStop => stopParams
  | .setDelay | .start | .releaseDoors => [need 1 1, need 2 1]
  | .book => bookingParams 1
  | .confirm | .cancel | .dropText => [need 1 2]
  | .cancelCode => [need 1 4]
  | .move => [need 1 2, need 2 1, need 3 1]
  | .replace => need 1 2 :: bookingParams 2
  | .putText => [need 1 2, ⟨2, 0, 255, true⟩]
  | .issue => issueParams
  | .amend => [need 1 1, need 2 2, may 3 1]
  | .set => [need 1 1, ⟨2, 1, 2, true⟩, may 3 1]
  | .acknowledge => [⟨1, 0, 48, false⟩]
  | _ => []

/-- The order that a command grants is granted next, and its parameters have its shape. -/
abbrev ordered (i : Instr) (s : State) (o : Order) : Prop :=
  nextGrant s = some (.crew o) ∧ orderKind i = some o.kind ∧ shaped (orderShape i) o.fields = true

/-- The order of command i was carried out and answered OK with some results (R125); only the parts that the order may
change have changed. -/
def taken (i : Instr) (s t : State) (results : List RawField) : Prop :=
  exec i s = .next t ∧ answersOrder s t (okWith results) (orderParts i)

/-- The order of command i was carried out and answered, and no record has changed. -/
def answeredOnly (i : Instr) (s t : State) (r : Reply) : Prop := exec i s = .next t ∧ answersOrder s t r []

/-- The coaches that a SET_LEVEL names (R159). -/
def levelTargets (s : State) (fs : List RawField) : List (Fin 16) :=
  match optNum fs 1, (optNum fs 2).bind Portion.ofCode with
  | some n, _ => (coachNo n).toList
  | none, some p => s.coachesOf p
  | none, none => []

/-- A port that has greeted with a label and is not DOWN or GREETING. -/
def Port.standsAs (q : Port) (label : List Byte) : Bool :=
  q.state != .down && q.state != .greeting && q.greeted == some label

/-- The command whose row is a frame (R200). -/
def CoachFrame.command (p : Fin 16) : CoachFrame → Instr
  | .greet label maximum revision => .greet p label maximum revision
  | .query fields => .query p fields
  | .noticeReceipt entry edition => .noticeReceipt p entry edition
  | .levelReceipt => .levelReceipt p
  | .releaseReceipt => .releaseReceipt p
  | .wake => .wake p

/-- R162: a port that has counted n frame errors more. -/
def Port.errors (q : Port) (n : Nat) : Port :=
  { q with frameErrors := if q.frameErrors + n ≤ 65535 then q.frameErrors + n else 65535 }

/-- The settings of the line unit (R183), as the rows are read: (setting, index, value). -/
def lineRows (s : State) : List (Nat × Option Nat × Nat) :=
  all8.map (fun n => (18, some n.val, s.lines.lines[n].function.code)) ++
  all8.map (fun n => (19, some n.val, LineLevel.code s.lines.lines[n].activeLevel)) ++
  [(20, some 0, s.lines.checkTimes[(0 : Fin 2)].val), (20, some 1, s.lines.checkTimes[(1 : Fin 2)].val),
    (21, none, maskOf ((all8.filter (fun n => s.lines.lines[n].inPattern)).map (·.val)))]

/-- Every setting of R183's table as it stands. -/
def allRows (s : State) : List (Nat × Option Nat × Nat) := settingRows s.settings ++ lineRows s

/-- Every step keeps a law. -/
def kept (law : State → Prop) : Prop := ∀ s t, law s → step s = .next t → law t

/-! ## The laws that every step keeps -/

/-- R79, R82, R52, R85: the counts of record memory sum to 2048, the reservation blocks are the reservations, the text
blocks are those of the slots, no block is held twice, each slot's chain is as long as its bytes need, handles and slot
ids are held once, and until a power-on start-up ends no record holds anything. -/
structure PoolLaw (s : State) : Prop where
  total : s.memory.free + s.memory.reserved + s.memory.text + s.memory.excludedBlocks.length = Config.poolBlocks
  reserved : s.memory.reserved = s.store.reservations.length
  text : s.memory.text = (s.memory.texts.map (fun t => textBlocks t.bytes.length)).sum
  handles : (heldHandles s).Nodup
  ids : (s.memory.texts.map (·.id)).Nodup
  blocks : (heldBlocks s).Nodup ∧ ∀ b ∈ heldBlocks s, b < Config.poolBlocks
  chains : ∀ t ∈ s.memory.texts, t.chain.length = textBlocks t.bytes.length
  fresh : s.time.startUp = some .powerOn → s.store.reservations = [] ∧ s.memory.texts = []

/-- R84: once start-up has ended, POOL_LOW is in the attention set exactly while the free count is below the mark. -/
def PoolLowLaw (s : State) : Prop :=
  s.time.startUp = none → (Condition.poolLow ∈ s.crew.attention ↔ s.memory.free < s.settings.lowWater)

/-- R154: query slots in use never exceed 32, nor a port's quota. -/
def QuerySlotLaw (s : State) : Prop :=
  slotsInUse s ≤ Config.querySlots ∧ ∀ p : Fin 16, (s.port p).waiting.length ≤ s.settings.queryQuota[p]

/-- R148, R143: a port is named by at most one coach entry, and it is BOUND only to the entry that names it and carries
the label of its last greeting; a port that is not BOUND has no bound coach. That a port is bound to at most one entry
and that an entry names at most one port are their types. -/
structure BindingLaw (s : State) : Prop where
  named : ∀ p c d, s.names c p = true → s.names d p = true → c = d
  bound : ∀ p, (s.port p).state = .bound →
    ∃ c, (s.port p).bound = some c ∧ s.names c p = true ∧ (s.port p).greeted = (s.coach c).map (·.label)
  only : ∀ p, (s.port p).state ≠ .bound → (s.port p).bound = none

/-- R178: at most four crew slots are in use. That none is EXECUTING between steps is read from R125, by which a granted
order is carried out whole (DEDUCED, log 19). -/
def CrewSlotLaw (s : State) : Prop :=
  s.crew.slots.length ≤ Config.crewSlots ∧ ∀ k ∈ s.crew.slots, k.state ≠ .executing

/-- R107, R109: a coach's pending list holds one item for an entry, its in-flight list no more than the push limit. -/
def ListLaw (s : State) : Prop :=
  ∀ c, ((s.listsOf c).pending.map PendingItem.entry).Nodup ∧ (s.listsOf c).inFlight.length ≤ s.settings.pushLimit

/-- R88: how many records name a text slot: stop names, reservation labels and live notice editions. -/
def textUsers (s : State) (id : Nat) : Nat :=
  s.route.stops.countP (fun x => x.name == id) + s.store.reservations.countP (fun r => r.label == some id) +
    all24.countP (fun e => (s.entry e).live.any (fun l => l.text == id))

/-- R88: the reference count of each slot is the number of records that name it, and no record names an absent slot.
Stops, reservations and slots have one id each (R25, R52, R85). -/
structure RefLaw (s : State) : Prop where
  stops : (s.route.stops.map (·.id)).Nodup
  handles : (heldHandles s).Nodup
  ids : (s.memory.texts.map (·.id)).Nodup
  counts : ∀ x ∈ s.memory.texts, x.refs = textUsers s x.id
  names : ∀ x ∈ s.route.stops, (s.findText x.name).isSome = true
  labels : ∀ r ∈ s.store.reservations, r.label.all (fun id => (s.findText id).isSome) = true
  notices : ∀ e, (s.entry e).live.all (fun l => (s.findText l.text).isSome) = true

/-- R53, R59: the reservations of a seat do not overlap, and every reservation is of a defined coach and one of its seats,
from a stop that its portion serves to a later one. -/
structure ChainLaw (s : State) : Prop where
  stops : (s.route.stops.map (·.id)).Nodup
  handles : (heldHandles s).Nodup
  served : ∀ r ∈ s.store.reservations,
    coachServes s r.coach r.board = true ∧ coachServes s r.coach r.alight = true ∧
      liesBefore s.route.stops r.board r.alight = true ∧ (s.coach r.coach).any (fun k => r.seat ≤ k.seatCount) = true
  apart : ∀ r ∈ s.store.reservations, ∀ q ∈ s.store.reservations, r.coach = q.coach → r.seat = q.seat →
    r.handle ≠ q.handle → overlap s.route.stops r.board r.alight q.board q.alight = false

/-- Whether an item of a coach's pending list, if it is a PUSH, is of the current edition of a live entry for which the
coach is reachable. -/
def pushCurrent (s : State) (c : Fin 16) : PendingItem → Bool
  | .push e edition => (s.entry e).live.any (fun l => l.edition == edition && reachable s l.target c)
  | .pull _ => true

/-- R97, R107: a pending PUSH is of the current edition of a live entry for which its coach is reachable, so a coach that
is DARK or not BOUND has none; a stop notice entry in use is its portion's (R9, R105). -/
structure PushLaw (s : State) : Prop where
  binding : BindingLaw s
  stopEntries : ∀ p, (s.entry p.stopEntry).live.all (fun l => l.target == .portions (.single p)) = true
  current : ∀ c, (s.listsOf c).pending.all (pushCurrent s c) = true

/-- R112: a notice is DELIVERED only while its delivery set is not empty and every coach in it has receipted. -/
def DeliveredLaw (s : State) : Prop := ∀ e, (s.entry e).live.all (fun l => l.state != .delivered || l.complete) = true

/-- R29's table: the progress that goes with a portion's state and phase, over the stop table. A VACANT portion has none,
and a DETACHING one stands at a platform (R12, R40). -/
def PortionRecord.fits (stops : List Stop) (p : Portion) (r : PortionRecord) : Bool :=
  let last := r.lastArrived.bind (findStop stops)
  match r.state, r.phase with
  | .vacant, _ => r == .vacant
  | _, none => false
  | .attached, some .noRoute => r.current.isNone && r.lastArrived.isNone
  | _, some .atPlatform | _, some .doorsReleased =>
    r.current == r.lastArrived && last.any (fun x => x.portions.mem p && !x.cancelled)
  | .attached, some .terminated => r.current == r.lastArrived && last.any (fun x => x.portions.mem p)
  | .attached, some .enRoute | .attached, some .approaching =>
    r.current.isSome && r.current == r.lastArrived.bind (nextStop stops p) && last.any (fun x => x.portions.mem p)
  | .detaching, _ => false

/-- R12, R13, R29: at most one portion is DETACHING, the detach deadline runs exactly then, and each portion's progress is
one of R29's table. A stop id stands in the table once (R25). -/
structure PortionLaw (s : State) : Prop where
  stops : (s.route.stops.map (·.id)).Nodup
  one : ∀ p q, (s.portion p).state = .detaching → (s.portion q).state = .detaching → p = q
  deadline : ∀ p, (s.portion p).deadline.isSome = ((s.portion p).state == .detaching)
  progress : ∀ p, (s.portion p).fits s.route.stops p = true

/-- R191, R192: outside SERVICE every coach is DARK, and the stabling deadline runs exactly while the mode is
STABLING. -/
structure StablingLaw (s : State) : Prop where
  dark : s.time.mode ≠ .service → ∀ c, (s.coach c).all (fun k => k.level == .dark) = true
  deadline : s.time.stablingDeadline.isSome = (s.time.mode == .stabling)

/-- R184: the attention set holds no duplicates. -/
def AttentionLaw (s : State) : Prop := s.crew.attention.Nodup

/-- R11, R28, R57, R95, R96, R52: generations and edition counters are in 1..65535, the handle counter in 1..65534. -/
structure CountLaw (s : State) : Prop where
  formation : within 1 65535 s.formation.gen = true
  route : within 1 65535 s.route.gen = true
  notice : within 1 65535 s.notice.gen = true
  seats : ∀ c, within 1 65535 (s.seatGen c) = true
  editions : ∀ e, within 1 65535 (s.entry e).counter = true
  handle : within 1 65534 s.store.handleCounter = true

end Sys2Proof.Machine
end

