-- ==== Sys2Proof/Certificates/Slice0/Obligations.lean ====
section
/-! DEFINITION. The statements for the provers. A statement of a command's result says in its conclusion that the
command answers a next state, and what that state holds and keeps. -/

open Sys2Proof Sys2Proof.Machine

/-! ## The machine -/

/-- Step at a state with command c in front is c's meaning on the state with the queue's rest; on an empty queue the
part idles (the model's choice, log 2). -/
def Obligations.StepRunsTheFrontCommand : Prop :=
  (∀ (c : Instr) (rest : List Instr) (s : State), step { s with pending := c :: rest } = exec c { s with pending := rest }) ∧
    ∀ s : State, step { s with pending := [] } = .next { s with pending := [] }

/-- Every command answers a next state in every state, and changes no part of it but those that its rules name. -/
def Obligations.EveryCommandAnswersWithinItsFrame : Prop :=
  ∀ c s, ∃ t, exec c s = .next t ∧ changes (touches c) s t

/-- The state after reset: the power-on values of R1, R9, R11, R25, R28, R51, R52, R57, R79, R80, R85, R94 to R96, R107,
R109, R123, R143, R164, R166, R178, R183, R184, R190, R191, R195. That a QUICK start-up is under way, that no carrier is
there, that the lines and their filtered levels are LOW and that RESET_N is not held is the model's choice (log 3). -/
def Obligations.ResetIsPowerOn : Prop :=
  let s := State.reset
  (∀ c, s.coach c = none ∧ s.seatGen c = 1 ∧ s.listsOf c = ⟨[], []⟩) ∧
    (∀ p, s.portion p = ⟨.vacant, none, none, none, none⟩) ∧
    (s.formation.gen = 1 ∧ s.route.gen = 1 ∧ s.notice.gen = 1) ∧
    (s.route.stops = [] ∧ s.store.reservations = [] ∧ s.store.handleCounter = 1) ∧
    (s.memory.free = 2048 ∧ s.memory.reserved = 0 ∧ s.memory.text = 0 ∧ s.memory.excludedBlocks = [] ∧
      s.memory.texts = []) ∧
    (∀ e, s.entry e = ⟨1, none⟩) ∧ s.arbiter = ⟨15, 0⟩ ∧
    (∀ p, s.port p =
      { state := .down, bound := none, greeted := none, maximum := 1, waiting := [], outbox := [], cursor := 1,
        continuation := none, refresh := ⟨false, false, false⟩, welcome := false, level := false, release := false,
        levelAwaited := false, releaseAwaited := false, frameErrors := 0, carrier := false, wait := none,
        sent := none }) ∧
    s.crew = ⟨[], none, none, [], []⟩ ∧
    (∀ n : Fin 8, s.lines.lines[n] = ⟨.unused, .high, .low, false, .low, none⟩) ∧
    (∀ g : Fin 2, checkTimeMs s.lines.checkTimes[g] = 50) ∧
    (s.lines.active = [] ∧ s.lines.complete = false ∧ s.lines.handOvers = []) ∧
    s.time =
      { tickCount := 0, mode := .service, stablingDeadline := none, startKind := .quick, startUp := some .powerOn,
        resetHeld := false } ∧
    s.settings =
      { reservationFloor := 1024, lowWater := 64, receiptDeadline := 50, pushLimit := 2,
        queryQuota := Vector.replicate 16 2, crewBurst := 2, lossGrace := 200, itemCap := 16, autoNextStop := true,
        autoApproaching := true, autoAtStop := true, arrivalNeedsApproach := true, detachDeadline := 300,
        stablingDeadline := 100, provisionalHold := 3000, darkPolicy := .refuseAll, doorsEndStabling := false,
        masked := Vector.replicate 16 false, twoLines := false } ∧
    s.pending = []

/-- The laws hold at reset. -/
def Obligations.TheLawsHoldAtReset : Prop :=
  PoolLaw State.reset ∧ PoolLowLaw State.reset ∧ QuerySlotLaw State.reset ∧ BindingLaw State.reset ∧
    CrewSlotLaw State.reset ∧ ListLaw State.reset ∧ StablingLaw State.reset ∧ AttentionLaw State.reset ∧
    CountLaw State.reset ∧ RefLaw State.reset ∧ ChainLaw State.reset ∧ PushLaw State.reset ∧
    DeliveredLaw State.reset ∧ PortionLaw State.reset

/-! ## The laws that every step keeps -/

/-- R79, R80, R81, R82, R52, R85. Which free block a claim takes is the model's choice (DESIGN CHOICE, log 16). -/
def Obligations.EveryStepKeepsThePoolLaw : Prop := kept PoolLaw

/-- R88, with the law of record memory (R79), by which the reservations are at most 2048 and leave handles free (R52). -/
def Obligations.EveryStepKeepsTheReferenceCounts : Prop := kept (fun s => PoolLaw s ∧ RefLaw s)

/-- R154, R178; R107, R109, R110. That no crew slot is EXECUTING between steps is log 19 (DEDUCED). -/
def Obligations.EveryStepKeepsTheSlotAndListLaws : Prop := kept QuerySlotLaw ∧ kept CrewSlotLaw ∧ kept ListLaw

/-- R148. -/
def Obligations.EveryStepKeepsTheBindingLaw : Prop := kept BindingLaw

/-- R53, R59, with the law of record memory (R79), by which the reservations are at most 2048 and leave handles free
(R52). -/
def Obligations.EveryStepKeepsTheSeatChains : Prop := kept (fun s => PoolLaw s ∧ ChainLaw s)

/-- R191, R192, R197. -/
def Obligations.EveryStepKeepsTheStablingLaw : Prop := kept StablingLaw

/-- R11, R28, R52, R57, R95, R96; R184; R84. -/
def Obligations.EveryStepKeepsCountsAndAttention : Prop := kept CountLaw ∧ kept AttentionLaw ∧ kept PoolLowLaw

/-- R97, R107; R112. -/
def Obligations.EveryStepKeepsPushesAndDelivery : Prop := kept PushLaw ∧ kept DeliveredLaw

/-- R9, R12, R13, R29. -/
def Obligations.EveryStepKeepsTheProgressTable : Prop := kept PortionLaw

/-! ## Frames and transfers -/

/-- R198: an ORDER frame that carries any fields that fit it is read back as it was written. R200: so is a frame of each
kind that a CDC can send, behind any bytes without a sync byte; one whose carrier breaks is dropped. That a revision is one
byte is log 32, that a character of a label is log 38 (DESIGN CHOICE). -/
def Obligations.FramesReadBack : Prop :=
  (∀ tag kind fs, tag ≤ 15 → kind < 256 → (∀ f ∈ fs, fieldFits f = true) →
    (fieldsBytes fs).length ≤ Config.maxOrderBody →
    judgeOrder (orderFrame tag kind fs) = some ⟨tag, kind, fs⟩ ∧
      orderFrameLength (orderFrame tag kind fs) = some (orderFrame tag kind fs).length) ∧
  ∀ f : CoachFrame, f.fits = true →
    (∀ noise : List Byte, (∀ b ∈ noise, b ≠ 0xC5) →
      receive [] 0 (noise ++ f.bytes) = [.passed f (f.bytes.length - 1)]) ∧
    ∀ n, 0 < n → n < f.bytes.length → (receive [n] 0 f.bytes).head? = some .dropped

/-- R176, R177: a frame that is clocked in with its intake byte is answered with the code of the table, and a FREE slot
takes the order exactly where the code is TAKEN; filler follows. A transfer that ends before its intake byte, and one
while RESET_N is held, leaves no order. R180, R199: FETCH returns the oldest answer, or the empty mark; the answer leaves
the queue, its slot is FREE and it is the last fetched one only where its last byte was clocked. R181: REFETCH returns the
last fetched answer again, or the empty mark, and changes nothing. R176: a transfer of an unknown kind returns filler.
That a body of items without text beyond 512 bytes is returned whole is log 37 (DEDUCED). -/
def Obligations.CrewTransfersAreAnswered : Prop :=
  (∀ s bytes n, s.time.resetHeld = false → orderFrameLength bytes = some n → n < bytes.length →
    ∃ t code, exec (.orderTransfer bytes) s = .next t ∧ changes [.slots, .out] s t ∧
      t.crew.out = code :: List.replicate (bytes.length - n - 1) 0xFF ∧
      (s.time.startUp ≠ none → code = 0x04 ∧ t.crew.slots = s.crew.slots) ∧
      (s.time.startUp = none → judgeOrder (bytes.take n) = none → code = 0x03 ∧ t.crew.slots = s.crew.slots) ∧
      (s.time.startUp = none → ∀ o, judgeOrder (bytes.take n) = some o → s.crew.slots.length < 4 →
        code = 0x01 ∧ t.crew.slots = s.crew.slots ++ [⟨o, .taken⟩]) ∧
      (s.time.startUp = none → ∀ o, judgeOrder (bytes.take n) = some o → 4 ≤ s.crew.slots.length →
        code = 0x02 ∧ t.crew.slots = s.crew.slots)) ∧
  (∀ s bytes, (s.time.resetHeld = true ∨ (orderFrameLength bytes).all (fun n => bytes.length ≤ n) = true) →
    ∃ t, exec (.orderTransfer bytes) s = .next t ∧ t.crew.out = [] ∧ changes [.out] s t) ∧
  (∀ s n, s.time.resetHeld = false →
    (∀ a rest, s.running = true → answerQueue s = a :: rest → a.frame.length ≤ n →
      ∃ t, exec (.fetch n) s = .next t ∧ t.crew.out = a.frame ++ List.replicate (n - a.frame.length) 0xFF ∧
        answerQueue t = rest ∧ t.crew.slots.length + 1 = s.crew.slots.length ∧ t.crew.lastFetched = some a ∧
        changes [.slots, .lastFetched, .out] s t) ∧
    (∀ a rest, s.running = true → answerQueue s = a :: rest → n < a.frame.length →
      ∃ t, exec (.fetch n) s = .next t ∧ t.crew.out = a.frame.take n ∧ changes [.out] s t) ∧
    ((answerQueue s = [] ∨ s.time.startUp ≠ none) →
      ∃ t, exec (.fetch n) s = .next t ∧
        t.crew.out = ((0x00 : Byte) :: List.replicate (n - 1) 0xFF).take n ∧ changes [.out] s t)) ∧
  (∀ s n a, s.running = true → s.crew.lastFetched = some a →
    ∃ t, exec (.refetch n) s = .next t ∧ t.crew.out = (a.frame ++ List.replicate (n - a.frame.length) 0xFF).take n ∧
      changes [.out] s t) ∧
  (∀ s n, s.time.resetHeld = false → (s.crew.lastFetched = none ∨ s.time.startUp ≠ none) →
    ∃ t, exec (.refetch n) s = .next t ∧ t.crew.out = ((0x00 : Byte) :: List.replicate (n - 1) 0xFF).take n ∧
      changes [.out] s t) ∧
  (∀ s first n, s.time.resetHeld = false → (Instr.unknownTransfer first n).wellFormed = true →
    ∃ t, exec (.unknownTransfer first n) s = .next t ∧ t.crew.out = List.replicate n 0xFF ∧ changes [.out] s t)

/-! ## Orders in common -/

/-- R124, R125: an order that is granted is carried out whole and answered once; one that is not answered OK changes no
record and carries no results. R198: an order whose parameters have not its shape is answered MALFORMED, and so is every
order of no known kind (R179). The command of an order that is not granted next changes nothing (the model's choice,
log 1). -/
def Obligations.AGrantedOrderIsAnsweredOnce : Prop :=
  (∀ i s o, nextGrant s = some (.crew o) → orderKind i = some o.kind →
    ∃ t r, exec i s = .next t ∧ answersOrder s t r (orderParts i) ∧
      (r.status ≠ .ok → r = refuse r.status ∧ changes [.arbiter, .slots] s t) ∧
      (shaped (orderShape i) o.fields = false → r = refuse .malformed)) ∧
  (∀ s o, nextGrant s = some (.crew o) → (o.kind = 0 ∨ 32 < o.kind) →
    ∃ t, answeredOnly .unknownOrder s t (refuse .malformed)) ∧
  ∀ i s kind, orderKind i = some kind → (∀ o, nextGrant s = some (.crew o) → o.kind ≠ kind) → exec i s = .next s

/-! ## Orders of the formation table -/

/-- R10: ATTACH of a VACANT portion. -/
def Obligations.AttachMakesAPortionAttached : Prop :=
  ∀ s o p, ordered .attach s o → Portion.ofCode (num o.fields 1) = some p → (s.portion p).state = .vacant →
    ∃ t, taken .attach s t [] ∧ t.portion p = ⟨.attached, some .noRoute, none, none, none⟩ ∧ otherPortions p s t ∧
      formationNews s t

/-- R12, R13, R15, R17 to R21: a DETACH that is taken while a coach of the portion is BOUND waits for the release
receipts; one that is taken while none is completes at once. -/
def Obligations.DetachWaitsOrCompletes : Prop :=
  ∀ s o p, ordered .detach s o → Portion.ofCode (num o.fields 1) = some p → s.time.mode ≠ .stabled →
    s.detachingPortion = none → (s.portion p).state = .attached →
    (∃ q, q ≠ p ∧ (s.portion q).state = .attached) → standsAtSplit s p = true →
    ((∃ c, s.portionOf c = some p ∧ (s.boundPort c).isSome = true) →
      ∃ t, exec .detach s = .next t ∧ answersOrder s t (okWith []) [.portions, .formationGen, .ports] ∧
        t.portion p = { s.portion p with state := .detaching, deadline := some s.settings.detachDeadline } ∧
        otherPortions p s t ∧ t.formation.gen = nextCount s.formation.gen ∧
        ∀ q, t.port q = ((if (s.coachesOf p).any (fun c => s.boundPort c == some q)
          then { s.port q with release := true, releaseAwaited := true } else s.port q).refreshed
            (fun r => { r with formation := true }))) ∧
    ((∀ c, s.portionOf c = some p → s.boundPort c = none) → (heldHandles s).Nodup →
      ∃ t, taken .detach s t [] ∧ PortionGone p Port.released s t ∧ .detachDone p ∈ t.crew.attention ∧
        t.formation.gen = nextCount (nextCount s.formation.gen))

/-- R159 to R161: SET_LEVEL sets the level of the coaches it names, and makes LEVEL pending on the port BOUND to each
coach whose level it changes. R116: coaches that it makes DARK leave the live notices together; that the entries are
judged once, behind all of them, is log 28 (DEDUCED), and that coaches that are not BOUND leave them too is log 35
(DEDUCED). -/
def Obligations.SetLevelSetsLevels : Prop :=
  ∀ s o level, ordered .setLevel s o → (optNum o.fields 1).isSome ≠ (optNum o.fields 2).isSome →
    Level.ofCode (num o.fields 3) = some level → s.time.mode = .service →
    (∀ n ∈ optNum o.fields 1, ∃ c, coachNo n = some c ∧ (s.coach c).isSome = true) →
    (∀ n ∈ optNum o.fields 2, ∃ p, Portion.ofCode n = some p ∧ (s.portion p).state ≠ .vacant) →
    ∃ t, taken .setLevel s t [] ∧
      (∀ c, t.coach c = if c ∈ levelTargets s o.fields then (s.coach c).map (fun k => { k with level := level })
        else s.coach c) ∧
      (∀ c p, c ∈ levelTargets s o.fields → (s.coach c).any (fun k => k.level != level) = true →
        s.boundPort c = some p → (t.port p).level = true ∧ (t.port p).levelAwaited = true) ∧
      (∀ q, (∀ c ∈ levelTargets s o.fields, s.boundPort c ≠ some q) → t.port q = s.port q) ∧
      (level = .dark → wentDarkTogether (litCoaches s (levelTargets s o.fields)) s t)

/-- R3 to R5, R146, R150: SET_COACH defines a VACANT entry, ONLINE where its port has greeted with its label, or rewrites
a defined one; no other entry changes. -/
def Obligations.SetCoachWritesTheEntry : Prop :=
  ∀ s o r, ordered .setCoach s o → readCoachOrder o.fields = some r → refusal (coachChecks s r) = none → BindingLaw s →
    ∃ t, taken .setCoach s t [] ∧ otherCoaches r.coach s t ∧ t.formation.gen = nextCount s.formation.gen ∧
      (s.coach r.coach = none →
        t.coach r.coach = some
          { label := r.label, port := r.port, portion := r.portion, position := r.position, seatCount := r.seatCount,
            hidden := r.hidden.getD false, wakeAllowed := r.wakeAllowed.getD true,
            level := if s.time.mode = .service then .full else .dark,
            savedLevel := if s.time.mode = .service then none else some .full,
            link := if r.port.any (fun p => (s.port p).standsAs r.label) then .online else .expected } ∧
        ∀ p, r.port = some p → (s.port p).standsAs r.label = true →
          (t.port p).state = .bound ∧ (t.port p).bound = some r.coach ∧ (t.port p).welcome = true) ∧
      ∀ k, s.coach r.coach = some k →
        (∃ link, t.coach r.coach = some
          { label := r.label, port := r.port, portion := r.portion, position := r.position, seatCount := r.seatCount,
            hidden := r.hidden.getD k.hidden, wakeAllowed := r.wakeAllowed.getD k.wakeAllowed,
            level := k.level, savedLevel := k.savedLevel, link := link } ∧
          (r.port = k.port → r.label = k.label → link = k.link)) ∧
        (r.portion = k.portion → t.store = s.store)

/-- R6, R150: REMOVE_COACH makes the entry VACANT; the port that it named is BOUND no more; the coach leaves every live
notice. -/
def Obligations.RemoveCoachVacatesTheEntry : Prop :=
  ∀ s o c k, ordered .removeCoach s o → coachNo (num o.fields 1) = some c → s.coach c = some k →
    (s.portion k.portion).state ≠ .detaching → coachReservations s c = [] → BindingLaw s →
    ∃ t, taken .removeCoach s t [] ∧ t.coach c = none ∧ otherCoaches c s t ∧
      t.formation.gen = nextCount s.formation.gen ∧ t.listsOf c = .empty ∧
      (∀ p, k.port = some p → (t.port p).state ≠ .bound) ∧
      ∀ e, (t.entry e).live.all (fun l => !l.delivery[c] && !l.receipted[c] && !l.holders[c]) = true

/-! ## Orders of the route unit -/

/-- R31 to R34, R40, R50, R105: PUT_STOP inserts a stop at its position or rewrites the one with its id, and answers the
position. -/
def Obligations.PutStopWritesTheStopTable : Prop :=
  ∀ s o, ordered .putStop s o → putMalformed s o.fields = false → putOutOfRange s o.fields = false →
    refusal (putChecks s o.fields) = none →
    (placeOf s.route.stops (num o.fields 1) = none →
      ∃ t, taken .putStop s t [⟨1, u8 (num o.fields 2)⟩] ∧
        stopsBecome (s.route.stops.take (num o.fields 2 - 1) ++
          putRecord o.fields none :: s.route.stops.drop (num o.fields 2 - 1)) s t) ∧
    ∀ i x, placeOf s.route.stops (num o.fields 1) = some i → findStop s.route.stops (num o.fields 1) = some x →
      ∃ t, taken .putStop s t [⟨1, u8 (i + 1)⟩] ∧
        stopsBecome (s.route.stops.map (fun y => if y.id = x.id then putRecord o.fields (some x) else y)) s t

/-- R35, whole. -/
def Obligations.RemoveStopFollowsItsRule : Prop :=
  ∀ s o, ordered .removeStop s o →
    (within 1 250 (num o.fields 1) = false → ∃ t, answeredOnly .removeStop s t (refuse .range)) ∧
    (within 1 250 (num o.fields 1) = true → findStop s.route.stops (num o.fields 1) = none →
      ∃ t, answeredOnly .removeStop s t (refuse .unknown)) ∧
    ∀ x, within 1 250 (num o.fields 1) = true → findStop s.route.stops (num o.fields 1) = some x →
      (((∃ r ∈ s.store.reservations, r.board = x.id ∨ r.alight = x.id) ∨
          (∃ p, (s.portion p).current = some x.id ∨ (s.portion p).lastArrived = some x.id) ∨
          (∃ e l, (s.entry e).live = some l ∧ l.subject = some x.id)) →
        ∃ t, answeredOnly .removeStop s t (refuse .inUse)) ∧
      ((∀ r ∈ s.store.reservations, r.board ≠ x.id ∧ r.alight ≠ x.id) →
        (∀ p, (s.portion p).current ≠ some x.id ∧ (s.portion p).lastArrived ≠ some x.id) →
        (∀ e l, (s.entry e).live = some l → l.subject ≠ some x.id) →
        ∃ t, taken .removeStop s t [] ∧ t.route.stops = s.route.stops.filter (fun y => y.id ≠ x.id) ∧
          textReleased x.name s t ∧ routeNews s t)

/-- R36 to R38, R40, R50, R105: CANCEL_STOP sets and REINSTATE_STOP clears a stop's cancelled flag; on a stop whose flag
stands so already they change nothing. That CANCEL_STOP is taken at a stop where a portion is TERMINATED is log 40
(DEDUCED). -/
def Obligations.CancelAndReinstateWriteTheFlag : Prop :=
  (∀ s o x, ordered .cancelStop s o → within 1 250 (num o.fields 1) = true →
    findStop s.route.stops (num o.fields 1) = some x →
    (x.cancelled = true → ∃ t, answeredOnly .cancelStop s t (okWith [])) ∧
    (x.cancelled = false → refusal (cancelChecks s x) = none →
      ∃ t, taken .cancelStop s t [] ∧
        stopsBecome (s.route.stops.map (fun y => if y.id = x.id then { y with cancelled := true } else y)) s t)) ∧
  (∀ s o x, ordered .reinstateStop s o → within 1 250 (num o.fields 1) = true →
    findStop s.route.stops (num o.fields 1) = some x →
    (x.cancelled = false → ∃ t, answeredOnly .reinstateStop s t (okWith [])) ∧
    (x.cancelled = true →
      ∃ t, taken .reinstateStop s t [] ∧
        stopsBecome (s.route.stops.map (fun y => if y.id = x.id then { y with cancelled := false } else y)) s t))

/-- R39, whole; a delay is one byte, so none lies outside 0..255. -/
def Obligations.SetDelayFollowsItsRule : Prop :=
  ∀ s o, ordered .setDelay s o →
    (within 1 250 (num o.fields 1) = false → ∃ t, answeredOnly .setDelay s t (refuse .range)) ∧
    (within 1 250 (num o.fields 1) = true → findStop s.route.stops (num o.fields 1) = none →
      ∃ t, answeredOnly .setDelay s t (refuse .unknown)) ∧
    ∀ x, within 1 250 (num o.fields 1) = true → findStop s.route.stops (num o.fields 1) = some x →
      ∃ t, taken .setDelay s t [] ∧ within 0 255 (num o.fields 2) = true ∧ routeNews s t ∧
        t.route.stops = s.route.stops.map (fun y => if y.id = x.id then { y with delay := num o.fields 2 } else y)

/-- R41, R43 to R45, R50, R105: START and ARRIVE bring a portion to a stop and ask for its AT_STOP notice. -/
def Obligations.StartAndArriveBringAPortionToAStop : Prop :=
  (∀ s o p x, ordered .start s o → Portion.ofCode (num o.fields 1) = some p → s.time.mode ≠ .stabled →
    (s.portion p).state = .attached → within 1 250 (num o.fields 2) = true →
    findStop s.route.stops (num o.fields 2) = some x → x.portions.mem p = true → x.cancelled = false →
    (heldHandles s).Nodup → ∃ t, taken .start s t [] ∧ arrived p x.id s t ∧ stopNoticeAsked p .atStop x s t) ∧
  (∀ s o p stop, ordered .arrive s o → Portion.ofCode (num o.fields 1) = some p → s.time.mode ≠ .stabled →
    (s.portion p).state = .attached → (s.portion p).current = some stop →
    ((s.portion p).phase = some .approaching ∨
      (s.portion p).phase = some .enRoute ∧ s.settings.arrivalNeedsApproach = false) →
    (heldHandles s).Nodup → ∃ t, taken .arrive s t [] ∧ arrived p stop s t ∧
      ∀ x, findStop s.route.stops stop = some x → stopNoticeAsked p .atStop x s t)

/-- R41, R46, R48, R50, R105: APPROACH of a portion EN_ROUTE; DEPART of a portion at a platform that has a next stop; each
asks for the stop notice of its kind. -/
def Obligations.ApproachAndDepartMoveAPortionOn : Prop :=
  (∀ s o p, ordered .approach s o → Portion.ofCode (num o.fields 1) = some p → s.time.mode ≠ .stabled →
    (s.portion p).state = .attached → (s.portion p).phase = some .enRoute →
    ∃ t, taken .approach s t [] ∧ t.portion p = { s.portion p with phase := some .approaching } ∧
      otherPortions p s t ∧ t.route.gen = nextCount s.route.gen ∧
      ∀ x, (s.portion p).current.bind (findStop s.route.stops) = some x → stopNoticeAsked p .approaching x s t) ∧
  (∀ s o p stop next, ordered .depart s o → Portion.ofCode (num o.fields 1) = some p → s.time.mode ≠ .stabled →
    (s.portion p).state = .attached →
    ((s.portion p).phase = some .atPlatform ∨ (s.portion p).phase = some .doorsReleased) →
    (s.portion p).current = some stop → nextStop s.route.stops p stop = some next →
    ∃ t, taken .depart s t [] ∧ t.portion p = { s.portion p with phase := some .enRoute, current := some next } ∧
      otherPortions p s t ∧ .departed p ∈ t.crew.attention ∧ t.route.gen = nextCount s.route.gen ∧
      ∀ x, findStop s.route.stops next = some x → stopNoticeAsked p .nextStop x s t)

/-- R41, R47: RELEASE_DOORS by phase, and DOOR_SIDE_MISMATCH where the stop's side does not include the released one. -/
def Obligations.ReleaseDoorsActsByPhase : Prop :=
  ∀ s o p side, ordered .releaseDoors s o → Portion.ofCode (num o.fields 1) = some p →
    Side.ofCode (num o.fields 2) = some side → s.time.mode ≠ .stabled → (s.portion p).state = .attached →
    let mismatch := ((s.portion p).current.bind (findStop s.route.stops)).any (fun x =>
      x.side == some .left && side != .left || x.side == some .right && side != .right)
    ((s.portion p).phase = some .atPlatform →
      ∃ t, taken .releaseDoors s t [] ∧ t.portion p = { s.portion p with phase := some .doorsReleased } ∧
        otherPortions p s t ∧ routeNews s t ∧
        t.crew.attention = if mismatch ∧ .doorSideMismatch p ∉ s.crew.attention
          then s.crew.attention ++ [.doorSideMismatch p] else s.crew.attention) ∧
    ((s.portion p).phase = some .doorsReleased ∨ (s.portion p).phase = some .terminated →
      ∃ t, exec .releaseDoors s = .next t ∧ answersOrder s t (okWith []) [.attention] ∧
        t.crew.attention = if mismatch ∧ .doorSideMismatch p ∉ s.crew.attention
          then s.crew.attention ++ [.doorSideMismatch p] else s.crew.attention) ∧
    ((s.portion p).phase = some .noRoute ∨ (s.portion p).phase = some .enRoute ∨
        (s.portion p).phase = some .approaching →
      ∃ t, answeredOnly .releaseDoors s t (refuse .phase))

/-! ## Orders of the reservation store -/

/-- R52, R54, R58 to R60, R79, R81: BOOK writes a reservation under a handle that no reservation holds, in a block that
was free and is the reservation's now. -/
def Obligations.BookWritesAReservation : Prop :=
  ∀ s o b, ordered .book s o → readBooking 1 s o.fields = some b → refusal (bookingChecks s b none) = none →
    s.memory.free ≠ 0 → PoolLaw s → within 1 65534 s.store.handleCounter = true →
    ∃ t h p block, taken .book s t [⟨1, u16 h⟩, ⟨2, u8 (statusFor s p b.board).code⟩] ∧
      h = nextHandle s (heldHandles s) ∧ h ∉ heldHandles s ∧ within 1 65534 h = true ∧
      s.portionOf b.coach = some p ∧
      t.store.reservations = s.store.reservations ++
        [⟨h, b.coach, b.seat, b.board, b.alight, b.code, b.label, b.hold, statusFor s p b.board, block⟩] ∧
      block < 2048 ∧ blockUse s block = .free ∧ blockUse t block = .reservation h ∧
      (∀ n, n ≠ block → blockUse t n = blockUse s n) ∧
      t.store.handleCounter = (if h = 65534 then 1 else h + 1) ∧
      t.memory.free + 1 = s.memory.free ∧ t.memory.reserved = s.memory.reserved + 1 ∧
      (∀ u, t.findText u = if b.label = some u then (s.findText u).map (fun x => { x with refs := x.refs + 1 })
        else s.findText u) ∧
      seatNews [b.coach] s t

/-- R63, whole. -/
def Obligations.ConfirmFollowsItsRule : Prop :=
  (∀ s o, nextGrant s = some (.crew o) → o.kind = 17 → bytesOf o.fields 1 = none →
    ∃ t, answeredOnly .confirm s t (refuse .malformed)) ∧
  ∀ s o, ordered .confirm s o →
    (within 1 65534 (num o.fields 1) = false → ∃ t, answeredOnly .confirm s t (refuse .range)) ∧
    (within 1 65534 (num o.fields 1) = true → s.findReservation (num o.fields 1) = none →
      ∃ t, answeredOnly .confirm s t (refuse .unknown)) ∧
    ∀ r, within 1 65534 (num o.fields 1) = true → s.findReservation (num o.fields 1) = some r →
      (r.hold = .confirmed → ∃ t, answeredOnly .confirm s t (okWith [])) ∧
      ∀ ticks, r.hold = .provisional ticks →
        ∃ t, taken .confirm s t [] ∧ seatNews [r.coach] s t ∧
          t.store.reservations =
            s.store.reservations.map (fun q => if q.handle = r.handle then { q with hold := .confirmed } else q)

/-- R66, whole, with R56 for the retirement: the record leaves, its block is free again and POOL_LOW follows, and its label
loses a reference. R67: CANCEL_CODE retires every reservation with its code and counts them. -/
def Obligations.CancelAndCancelCodeRetire : Prop :=
  (∀ s o, nextGrant s = some (.crew o) → o.kind = 18 → bytesOf o.fields 1 = none →
    ∃ t, answeredOnly .cancel s t (refuse .malformed)) ∧
  (∀ s o, ordered .cancel s o →
    (within 1 65534 (num o.fields 1) = false → ∃ t, answeredOnly .cancel s t (refuse .range)) ∧
    (within 1 65534 (num o.fields 1) = true → s.findReservation (num o.fields 1) = none →
      ∃ t, answeredOnly .cancel s t (refuse .unknown)) ∧
    ∀ r, within 1 65534 (num o.fields 1) = true → s.findReservation (num o.fields 1) = some r →
      let emptied := (r.label.bind s.findText).filter (fun x => x.released.isNone)
      ∃ t, taken .cancel s t [] ∧ t.store.reservations = s.store.reservations.filter (fun q => q.handle ≠ r.handle) ∧
        t.memory.reserved = s.memory.reserved - 1 ∧
        t.memory.free = s.memory.free + 1 + ((emptied.map (fun x => textBlocks x.bytes.length)).getD 0) ∧
        (.poolLow ∈ t.crew.attention ↔ t.memory.free < s.settings.lowWater) ∧ seatNews [r.coach] s t ∧
        (PoolLaw s → blockUse t r.block = .free) ∧ (r.label = none → t.memory.texts = s.memory.texts) ∧
        ∀ id, r.label = some id → textReleased id s t) ∧
  (∀ s o, nextGrant s = some (.crew o) → o.kind = 19 → bytesOf o.fields 1 = none →
    ∃ t, answeredOnly .cancelCode s t (refuse .malformed)) ∧
  (∀ s o, ordered .cancelCode s o → (heldHandles s).Nodup →
    let code := BitVec.ofNat 32 (num o.fields 1)
    let count := s.store.reservations.countP (fun r => r.code == some code)
    (PoolLaw s → count ≤ 2048) ∧ (count = 0 → ∃ t, answeredOnly .cancelCode s t (okWith [⟨1, u16 0⟩])) ∧
    ∃ t, taken .cancelCode s t [⟨1, u16 count⟩] ∧
      t.store.reservations = s.store.reservations.filter (fun r => r.code ≠ some code) ∧
      seatNews (all16.filter (fun c => s.store.reservations.any (fun r => r.coach == c && r.code == some code))) s t)

/-- R52, R54, R68 to R71: MOVE gives a reservation another seat, and keeps everything else of it; REPLACE puts a new
reservation under a new handle in the place of an old one and in its block, and claims no block. -/
def Obligations.MoveAndReplaceChangeTheRecord : Prop :=
  (∀ s o c r, ordered .move s o → coachNo (num o.fields 2) = some c → within 1 120 (num o.fields 3) = true →
    within 1 65534 (num o.fields 1) = true → s.findReservation (num o.fields 1) = some r →
    refusal (moveChecks s r c (num o.fields 3)) = none →
    ∃ t p, taken .move s t [⟨1, u8 (statusFor s p r.board).code⟩] ∧ s.portionOf c = some p ∧
      seatNews [r.coach, c] s t ∧
      t.store.reservations = s.store.reservations.map (fun q =>
        if q.handle = r.handle then { q with coach := c, seat := num o.fields 3, status := statusFor s p r.board }
        else q)) ∧
  ∀ s o b old, ordered .replace s o → readBooking 2 s o.fields = some b → within 1 65534 (num o.fields 1) = true →
    s.findReservation (num o.fields 1) = some old → refusal (bookingChecks s b (some old)) = none → PoolLaw s →
    within 1 65534 s.store.handleCounter = true →
    ∃ t h p, taken .replace s t [⟨1, u16 h⟩, ⟨2, u8 (statusFor s p b.board).code⟩] ∧
      h = nextHandle s (heldHandles s) ∧ h ∉ heldHandles s ∧ s.portionOf b.coach = some p ∧
      t.store.reservations = s.store.reservations.filter (fun q => q.handle ≠ old.handle) ++
        [⟨h, b.coach, b.seat, b.board, b.alight, b.code, b.label, b.hold, statusFor s p b.board, old.block⟩] ∧
      blockUse t old.block = .reservation h ∧
      t.memory.reserved = s.memory.reserved ∧ seatNews [old.coach, b.coach] s t

/-! ## Orders of the text store and the notice unit -/

/-- R79, R82, R86, R87, R90: PUT_TEXT claims free blocks for a text, chained in its slot, and makes it present; DROP_TEXT frees a slot without
references and makes another retiring. -/
def Obligations.PutTextAndDropText : Prop :=
  (∀ s o bytes, ordered .putText s o → bytesOf o.fields 2 = some bytes → within 1 511 (num o.fields 1) = true →
    within 1 240 bytes.length = true → s.findText (num o.fields 1) = none →
    (s.settings.reservationFloor - s.memory.reserved) + (bytes.length + 31) / 32 ≤ s.memory.free →
    PoolLaw s →
    ∃ t chain, taken .putText s t [⟨1, u8 ((bytes.length + 31) / 32)⟩] ∧
      t.memory.texts = s.memory.texts ++ [⟨num o.fields 1, bytes, 0, false, chain⟩] ∧
      chain.length = (bytes.length + 31) / 32 ∧ chain.Nodup ∧
      (∀ n ∈ chain, n < 2048 ∧ blockUse s n = .free ∧ blockUse t n = .text (num o.fields 1)) ∧
      (∀ n, n ∉ chain → blockUse t n = blockUse s n) ∧
      t.memory.free + (bytes.length + 31) / 32 = s.memory.free ∧
      t.memory.text = s.memory.text + (bytes.length + 31) / 32 ∧ t.memory.reserved = s.memory.reserved) ∧
  (∀ s o x, ordered .dropText s o → within 1 511 (num o.fields 1) = true → s.findText (num o.fields 1) = some x →
    (x.retiring = false → x.refs = 0 →
      ∃ t, taken .dropText s t [⟨1, u8 0⟩] ∧ t.memory.texts = s.memory.texts.filter (fun y => y.id ≠ x.id) ∧
        t.memory.free = s.memory.free + (x.bytes.length + 31) / 32 ∧
        (PoolLaw s → ∀ n ∈ x.chain, blockUse t n = .free)) ∧
    (x.retiring = false → 0 < x.refs →
      ∃ t, exec .dropText s = .next t ∧ answersOrder s t (okWith [⟨1, u8 1⟩, ⟨2, u16 x.refs⟩]) [.texts] ∧
        t.memory.texts = s.memory.texts.map (fun y => if y.id = x.id then { y with retiring := true } else y)) ∧
    (x.retiring = true →
      ∃ t, exec .dropText s = .next t ∧ answersOrder s t (okWith [⟨1, u8 1⟩, ⟨2, u16 x.refs⟩]) [.texts] ∧
        t.findText x.id = some x ∧ ∀ u, t.findText u = s.findText u))

/-- R95, R98 to R100: ISSUE begins an edition in the lowest-numbered FREE general entry and pushes it to the coaches that
are reachable for its target. R98, R101: AMEND begins a new edition in a live general entry, with another text and priority; its holders, target
and lifetime stay. -/
def Obligations.IssueAndAmendBeginEditions : Prop :=
  (∀ s o e kind, ordered .issue s o → issueMalformed o.fields = false → issueOutOfRange o.fields = false →
    refusal (issueChecks s o.fields) = none → freeGeneral s = some e →
    NoticeKind.general (num o.fields 1) = some kind →
    let l : LiveNotice :=
      { kind := kind, priority := num o.fields 2, target := issueTarget o.fields, text := num o.fields 5,
        subject := optNum o.fields 6, lifetime := if num o.fields 7 = 0 then none else some (num o.fields 7),
        edition := 0, start := 0, state := .partly, delivery := CoachSet.none, receipted := CoachSet.none,
        holders := CoachSet.none }
    ∃ t, taken .issue s t [⟨1, u8 (e.val + 1)⟩, ⟨2, u16 (s.entry e).counter⟩] ∧ t.entry e = begun s e l ∧
      otherEntries e s t ∧ pushesPlaced e l s t ∧ t.notice.gen = nextCount s.notice.gen ∧
      ∀ u, t.findText u = if u = l.text then (s.findText u).map (fun x => { x with refs := x.refs + 1 })
        else s.findText u) ∧
  ∀ s o e l x, ordered .amend s o → entryNo (num o.fields 1) = some e → e.val < 21 → (s.entry e).live = some l →
    optWithin 0 7 (optNum o.fields 3) = true → within 1 511 (num o.fields 2) = true →
    (num o.fields 2 = l.text ∨ s.findText (num o.fields 2) = some x ∧ x.retiring = false) →
    let l' : LiveNotice := { l with text := num o.fields 2, priority := (optNum o.fields 3).getD l.priority }
    ∃ t, taken .amend s t [⟨1, u16 (s.entry e).counter⟩] ∧ t.entry e = begun s e l' ∧ otherEntries e s t ∧
      pushesPlaced e l' s t ∧ t.notice.gen = nextCount s.notice.gen

/-- R103, whole, with R102 for the freeing. -/
def Obligations.WithdrawFollowsItsRule : Prop :=
  (∀ s o, nextGrant s = some (.crew o) → o.kind = 26 → bytesOf o.fields 1 = none →
    ∃ t, answeredOnly .withdraw s t (refuse .malformed)) ∧
  ∀ s o, ordered .withdraw s o →
    (within 1 24 (num o.fields 1) = false → ∃ t, answeredOnly .withdraw s t (refuse .range)) ∧
    (∀ e, entryNo (num o.fields 1) = some e → (s.entry e).live = none →
      ∃ t, answeredOnly .withdraw s t (refuse .unknown)) ∧
    ∀ e l, entryNo (num o.fields 1) = some e → (s.entry e).live = some l →
      ∃ t, taken .withdraw s t [] ∧ freedWithPulls e l s t ∧ t.notice.gen = nextCount s.notice.gen

/-! ## The lines that the part drives -/

/-- R185, R180, R144, R195 to R197: once start-up has ended and RESET_N is not held, ATN0, ATN1 and ANSWER_READY stand as
the attention set, its mask and split and the answer queue have them, and every port drives its carrier; before that,
and while RESET_N is held, nothing is driven. That the first three are not driven while RESET_N is held is the model's
choice (DESIGN CHOICE, log 3): R185 and R195 say it of start-up. -/
def Obligations.LinesAreDrivenByTheRecords : Prop :=
  ∀ s, (s.running = true →
      (atn0 s = true ↔ ∃ c ∈ s.crew.attention,
        s.settings.masked[c.kind] = false ∧ (c.kind.val < 10 ∨ s.settings.twoLines = false)) ∧
      (atn1 s = true ↔ s.settings.twoLines = true ∧
        ∃ c ∈ s.crew.attention, s.settings.masked[c.kind] = false ∧ 10 ≤ c.kind.val) ∧
      (answerReadyLine s = true ↔ ∃ k ∈ s.crew.slots, ∃ r, k.state = .answerReady r) ∧
      ∀ p, carrierOut s p = true) ∧
    ((s.time.startUp ≠ none ∨ s.time.resetHeld = true) →
      atn0 s = false ∧ atn1 s = false ∧ answerReadyLine s = false ∧ ∀ p, carrierOut s p = false)

/-! ## SET, ACKNOWLEDGE, the stabling orders and JOURNEY_CLEAR -/

/-- R183: a SET that is taken writes the value of its setting, and every other setting stays. R110, R154, R84: a lowered
push limit or query quota acts at once, and POOL_LOW follows the low-water mark. -/
def Obligations.SetWritesOneSetting : Prop :=
  ∀ s o, ordered .set s o → setMalformed o.fields = false → setOutOfRange o.fields = false →
    ∃ t, taken .set s t [] ∧
      (num o.fields 1, optNum o.fields 3, num o.fields 2) ∈ allRows t ∧
      (∀ r ∈ allRows s, (r.1, r.2.1) ≠ (num o.fields 1, optNum o.fields 3) → r ∈ allRows t) ∧
      (num o.fields 1 = 4 → ∀ c, (t.listsOf c).inFlight = (s.listsOf c).inFlight.take (num o.fields 2)) ∧
      (num o.fields 1 = 5 → ∀ p : Fin 16, p.val = num o.fields 3 →
        (t.port p).waiting = (s.port p).waiting.take (num o.fields 2)) ∧
      (num o.fields 1 = 2 → (.poolLow ∈ t.crew.attention ↔ s.memory.free < num o.fields 2))

/-- R84, R186, R187: ACKNOWLEDGE removes the pairs that its items name and answers how many, with the attention summary
as it leaves the set; POOL_LOW comes back while the free count is below the mark. -/
def Obligations.AcknowledgeRemovesPairs : Prop :=
  ∀ s o, ordered .acknowledge s o → ackMalformed o.fields = false →
    (ackList o.fields).all (fun i => !i.outOfRange) = true →
    ∃ t, taken .acknowledge s t
        [⟨1, u8 (s.crew.attention.countP (fun c => (ackList o.fields).any (·.names c)))⟩, ⟨2, attentionSummary t⟩] ∧
      (∀ c, c ≠ .poolLow →
        (c ∈ t.crew.attention ↔ c ∈ s.crew.attention ∧ (ackList o.fields).all (fun i => !i.names c) = true)) ∧
      (.poolLow ∈ t.crew.attention ↔ s.memory.free < s.settings.lowWater)

/-- R191 to R193: ENTER_STABLED in SERVICE makes every coach DARK and keeps its level; the mode is STABLED at once where
no BOUND port has a LEVEL receipt to wait for, STABLING otherwise. LEAVE_STABLED gives every coach its level back. R116: the
coaches that go DARK leave the live notices together; that the entries are judged once, behind all of them, is log 28
(DEDUCED), and that coaches that are not BOUND leave them too is log 35 (DEDUCED). -/
def Obligations.StablingSavesAndRestoresLevels : Prop :=
  (∀ s o, ordered .enterStabled s o → s.time.mode = .service → BindingLaw s →
    ∃ t, exec .enterStabled s = .next t ∧
      answersOrder s t (okWith [⟨1, u8 t.time.mode.code⟩]) (orderParts .enterStabled) ∧
      (∀ c, t.coach c = (s.coach c).map (fun k => { k with level := .dark, savedLevel := some k.level })) ∧
      t.time.tickCount = s.time.tickCount ∧ wentDarkTogether (litCoaches s all16) s t ∧
      ((∀ p, (s.port p).state ≠ .bound) →
        t.time.mode = .stabled ∧ t.time.stablingDeadline = none ∧ .stabledReached ∈ t.crew.attention) ∧
      ((∃ p, (s.port p).state = .bound) →
        t.time.mode = .stabling ∧ t.time.stablingDeadline = some s.settings.stablingDeadline)) ∧
  (∀ s o, ordered .leaveStabled s o → s.time.mode ≠ .service →
    ∃ t, taken .leaveStabled s t [⟨1, u8 0⟩] ∧ t.time.mode = .service ∧ t.time.stablingDeadline = none ∧
      ∀ c, t.coach c = (s.coach c).map (fun k => { k with level := k.savedLevel.getD k.level, savedLevel := none })) ∧
  (∀ s o, ordered .enterStabled s o → s.time.mode ≠ .service →
    ∃ t, answeredOnly .enterStabled s t (okWith [⟨1, u8 s.time.mode.code⟩])) ∧
  (∀ s o, ordered .leaveStabled s o → s.time.mode = .service →
    ∃ t, answeredOnly .leaveStabled s t (okWith [⟨1, u8 0⟩]))

/-- R77, R194: JOURNEY_CLEAR, with no portion DETACHING, retires every reservation, empties the stop table, frees every
notice and clears the progress; the coaches, the portions and the settings stay, each generation advances once. R24:
with a portion DETACHING, that completes as forced first; how often each generation then advances is log 14 (DEDUCED). -/
def Obligations.JourneyClearEmptiesTheJourney : Prop :=
  (∀ s o, ordered .journeyClear s o → s.detachingPortion = none →
    ∃ t, taken .journeyClear s t [] ∧ t.store.reservations = [] ∧ t.route.stops = [] ∧
      (∀ e, t.entry e = ⟨(s.entry e).counter, none⟩) ∧
      (∀ p, t.portion p = if (s.portion p).state = .attached then
        { s.portion p with phase := some .noRoute, current := none, lastArrived := none } else s.portion p) ∧
      t.formation.coaches = s.formation.coaches ∧ t.formation.gen = nextCount s.formation.gen ∧
      t.route.gen = nextCount s.route.gen ∧ t.notice.gen = nextCount s.notice.gen ∧ t.time = s.time ∧
      ∀ c, t.seatGen c = nextCount (s.seatGen c)) ∧
  ∀ s o p, ordered .journeyClear s o → s.detachingPortion = some p → (heldHandles s).Nodup →
    ∃ t, taken .journeyClear s t [] ∧ t.portion p = .vacant ∧ .detachForced p ∈ t.crew.attention ∧
      (∀ c, t.coach c = if s.portionOf c = some p then none else s.coach c) ∧
      (∀ c q, s.portionOf c = some p → s.names c q = true → t.port q = (s.port q).released) ∧
      t.store.reservations = [] ∧ t.route.stops = [] ∧ (∀ e, t.entry e = ⟨(s.entry e).counter, none⟩) ∧
      (∀ q, q ≠ p → t.portion q = if (s.portion q).state = .attached then
        { s.portion q with phase := some .noRoute, current := none, lastArrived := none } else s.portion q) ∧
      t.formation.gen = nextCount (nextCount s.formation.gen) ∧ t.route.gen = nextCount (nextCount s.route.gen) ∧
      t.notice.gen = nextCount s.notice.gen ∧ (s.time.mode ≠ .stabling → t.time = s.time) ∧
      ∀ c, t.seatGen c = nextCount (s.seatGen c)

/-! ## Lookups -/

/-- R91, R129, R132, R138, R139, R189: the locators that return one record, on the crew port: the item holds the fields
selected of the record as it stands; no record changes, and the continuation is cleared (R140). The
numbers of the fields of a VACANT coach's item, the coach number 0 and the state 17, are log 10 (DEDUCED: R138 gives the
state no number), and that it holds both whatever is selected is log 41 (DEDUCED); those of a notice's sets and their sizes are log 31 (DEDUCED). -/
def Obligations.SingleRecordLookupsReadTheRecord : Prop :=
  ∀ s tag fs l, asks s .crew tag fs → wellAsked .crew l fs →
    let n := num fs 4
    let mask := num fs 3
    let reads := fun (gen : Nat) (keys : List Nat) (r : Record) =>
      ∃ t, exec (lookupCommand l) s = .next t ∧
        answered s t .crew tag ⟨.ok, gen, [], [itemOf (heldFields true l) keys mask r]⟩ none
    (l = .reservation → ∀ r, s.findReservation n = some r → reads (s.seatGen r.coach) [0] (reservationRecord s r)) ∧
    (l = .coach → ∀ c k, coachNo n = some c → s.coach c = some k → reads s.formation.gen [0] (coachRecord s c)) ∧
    (l = .coach → ∀ c, coachNo n = some c → s.coach c = none →
      ∃ t, exec .coach s = .next t ∧
        answered s t .crew tag ⟨.ok, s.formation.gen, [], [[⟨1, u8 (c.val + 1)⟩, ⟨18, u8 0⟩]]⟩ none) ∧
    (l = .port → ∀ p, portNo n = some p → reads 0 [0] (portRecord s p)) ∧
    (l = .text → ∀ x, s.findText n = some x → reads 0 [0] (textRecord x)) ∧
    (l = .notice → ∀ e, entryNo n = some e → reads s.notice.gen [0] (noticeRecord s e)) ∧
    (l = .pool → reads 0 [] (poolRecord s)) ∧
    (l = .identity → reads 0 [] (identityRecord s))

/-- R130, R131, R140: a walk returns its items from the first on, up to the answer limit, OK where none is left and MORE
with a continuation at the next item otherwise. That FORMATION holds no more fields on the crew port than on a coach port is
log 42 (DEDUCED). -/
def Obligations.WalksReturnItemsUpToTheLimit : Prop :=
  ∀ s a tag fs l w, asks s a tag fs → wellAsked a l fs → walkAsked a l fs s = some w →
    let items := walkItems a w (selectionOf a fs) s
    let limit := answerLimit a s
    (items.length ≤ limit →
      ∃ t, exec (lookupCommand l) s = .next t ∧
        answered s t a tag ⟨.ok, walkGeneration w s, [], items.map (·.2)⟩ none) ∧
    (∀ key item rest, items.drop limit = (key, item) :: rest →
      ∃ t, exec (lookupCommand l) s = .next t ∧
        answered s t a tag ⟨.more, walkGeneration w s, [], (items.take limit).map (·.2)⟩
          (some ⟨w, BitVec.ofNat 32 (selectionOf a fs), key, walkGenerations w s⟩))

/-- R141: CONTINUE goes on at the resume key where the generations stand as they were kept, is answered STALE and clears
the continuation where they do not, and UNKNOWN where none is held. R130, R131 give the answer limit and the generation
that the answer carries. That a STALE one of a BOOKING walk carries generation 0 is log 24 (DEDUCED). -/
def Obligations.ContinueResumesTheWalk : Prop :=
  ∀ s a tag fs, asks s a tag fs → wellAsked a .resume fs →
    (heldContinuation a s = none →
      ∃ t, exec .continue s = .next t ∧ answered s t a tag (refuse .unknown) none) ∧
    (∀ k, heldContinuation a s = some k → k.generations ≠ walkGenerations k.walk s →
      ∃ t, exec .continue s = .next t ∧ answered s t a tag ⟨.stale, walkGeneration k.walk s, [], []⟩ none) ∧
    (∀ k, heldContinuation a s = some k → k.generations = walkGenerations k.walk s →
      let rest := (walkItems a k.walk k.selection.toNat s).filter (fun x => k.key ≤ x.1)
      let limit := answerLimit a s
      (rest.length ≤ limit →
        ∃ t, exec .continue s = .next t ∧
          answered s t a tag ⟨.ok, walkGeneration k.walk s, [], rest.map (·.2)⟩ none) ∧
      (∀ key item more, rest.drop limit = (key, item) :: more →
        ∃ t, exec .continue s = .next t ∧
          answered s t a tag ⟨.more, walkGeneration k.walk s, [], (rest.take limit).map (·.2)⟩ (some { k with key := key })))

/-- R135, R136: STOP_REL finds the stop at an offset from the portion's origin, STOP_AT the stop with an id, in the
portion's served sequence. -/
def Obligations.StopLookupsFindAStop : Prop :=
  (∀ s a tag fs p (place : Nat) x, asks s a tag fs → wellAsked a .stopRel fs → livePortion a fs s = some p →
    (originOf s p : Int) + offsetOf (firstParam a fs) = (place : Int) →
    (servedSequence s.route.stops p)[place]? = some x →
    ∃ t, exec .stopRel s = .next t ∧
      answered s t a tag ⟨.ok, s.route.gen, [], [itemOf (heldFields a.isCrew .stopRel) [0] (selectionOf a fs)
        (stopRecord s p place x)]⟩ none) ∧
  (∀ s a tag fs p place x, asks s a tag fs → wellAsked a .stopAt fs → livePortion a fs s = some p →
    findStop s.route.stops (firstParam a fs) = some x → placeOf (servedSequence s.route.stops p) x.id = some place →
    ∃ t, exec .stopAt s = .next t ∧
      answered s t a tag ⟨.ok, s.route.gen, [], [itemOf (heldFields a.isCrew .stopAt) [0] (selectionOf a fs)
        (stopRecord s p place x)]⟩ none)

/-- R133, R134, R138: SEAT_NEXT returns seats from the port's cursor on and moves it past them, to 1 and with WRAPPED
where it has reached the end; SEAT_CURSOR sets the cursor; SELF returns the asking coach. That the
WRAPPED mark is a field with id 4 and value 0 is the model's choice (DESIGN CHOICE, log 12). -/
def Obligations.SeatNextSeatCursorAndSelf : Prop :=
  ∀ s p c tag fs, asks s (.coach p c) tag fs →
    (∀ k, wellAsked (.coach p c) .seatNext fs → s.coach c = some k →
      let first := if k.seatCount < (s.port p).cursor then 1 else (s.port p).cursor
      let count := min (min s.settings.itemCap (s.port p).maximum) (k.seatCount + 1 - first)
      let ends := decide (k.seatCount < first + count)
      let starts := decide (k.seatCount < (s.port p).cursor)
      ∃ t, exec .seatNext s = .next t ∧
        answersQuery s t p tag
          ⟨.ok, s.seatGen c, if ends || starts then [⟨4, u8 0⟩] else [],
            (List.range' first count).map (fun n => itemOf (heldFields false .seatNext) [0] (num fs 4) (seatRecord s c n))⟩
          { s.port p with continuation := none, cursor := if ends then 1 else first + count }) ∧
    (wellAsked (.coach p c) .seatCursor fs →
      ∃ t, exec .seatCursor s = .next t ∧
        answersQuery s t p tag ⟨.ok, s.seatGen c, [], []⟩
          { s.port p with continuation := none, cursor := num fs 5 }) ∧
    (wellAsked (.coach p c) .self fs →
      ∃ t, exec .self s = .next t ∧
        answersQuery s t p tag
          ⟨.ok, s.formation.gen, [], [itemOf (heldFields false .self) [0] (num fs 4) (coachRecord s c)]⟩
          { s.port p with continuation := none })

/-- R127, R140, R153: a request whose locator is missing or unknown, that its port does not take or whose fields are
wrong is answered MALFORMED, one with a parameter out of range RANGE; both clear the continuation, unless it is a
CONTINUE. A DARK coach that the dark answer policy does not serve is answered DARK. That a QUERY with a field that its
locator does not use, with one twice or with one of another length is MALFORMED is log 34 (DEDUCED), and so is a READ of
FORMATION that selects a field of COACH alone, log 42 (DEDUCED). -/
def Obligations.RefusedLookupsChangeNoRecord : Prop :=
  (∀ s a tag fs, asks s a tag fs → locatorOf a.base fs = none →
    ∃ t, exec .unknownLocator s = .next t ∧ answered s t a tag (refuse .malformed) none) ∧
  (∀ s a tag fs l, asks s a tag fs → locatorOf a.base fs = some l → requestMalformed a l fs = true →
    ∃ t, exec (lookupCommand l) s = .next t ∧
      answered s t a tag (refuse .malformed) (if l = .resume then heldContinuation a s else none)) ∧
  (∀ s a tag fs l, asks s a tag fs → locatorOf a.base fs = some l → requestMalformed a l fs = false →
    requestOutOfRange a l fs = true →
    ∃ t, exec (lookupCommand l) s = .next t ∧
      answered s t a tag (refuse .range) (if l = .resume then heldContinuation a s else none)) ∧
  (∀ s p c q, nextGrant s = some (.coach p q) → (s.port p).bound = some c → isDark s c = true →
    darkServed s p (locatorOf 2 q.fields) = false →
    ∃ t, exec (((locatorOf 2 q.fields).map lookupCommand).getD .unknownLocator) s = .next t ∧
      answersQuery s t p q.tag (refuse .dark) (s.port p))

/-! ## Coach display links -/

/-- R144, R145: a carrier that comes or goes begins or ends a wait with the loss grace as it stands; a qualified carrier
makes the port GREETING; an absence that outlasts the grace makes the port DOWN and its coach LOST. -/
def Obligations.TheCarrierMakesAndEndsALink : Prop :=
  (∀ s p present, s.running = true → (s.port p).carrier ≠ present →
    ∃ t, exec (.incomingCarrierChange p present) s = .next t ∧
      portBecomes p { s.port p with
        carrier := present,
        wait := if (s.port p).state = .down ∧ present = true ∨ (s.port p).state ≠ .down ∧ present = false
          then some s.settings.lossGrace else none } s t) ∧
  (∀ s p ms, s.running = true → (s.port p).state = .down → (s.port p).carrier = true → (s.port p).wait = some ms →
    ∃ t, exec (.carrierQualified p) s = .next t ∧
      portBecomes p { s.port p with state := .greeting, greeted := none, wait := none } s t) ∧
  (∀ s p ms, s.running = true → (s.port p).state ≠ .down → (s.port p).wait = some ms → (s.port p).bound = none →
    ∃ t, exec (.linkLost p) s = .next t ∧ portBecomes p (s.port p).lost s t) ∧
  (∀ s p ms c, s.running = true → (s.port p).state = .bound → (s.port p).wait = some ms →
    (s.port p).bound = some c → s.detachingPortion = none →
    ∃ t, exec (.linkLost p) s = .next t ∧ t.port p = (s.port p).lost ∧ otherPorts p s t ∧
      t.coach c = (s.coach c).map (fun k => { k with link := .lost }) ∧ otherCoaches c s t ∧
      .coachLost c ∈ t.crew.attention ∧ t.listsOf c = .empty ∧
      changes [.coaches, .entries, .lists, .noticeGen, .ports, .attention, .time] s t)

/-- R146 to R149: a GREET is judged against the entries as they stand: the port becomes UNBOUND, MISMATCHED, or BOUND to
the coach whose entry names it and carries the label; a second GREET of the bound coach is a CDC restart. That a character
of a label is one byte is log 38, that a revision is one byte log 32 (DESIGN CHOICE). -/
def Obligations.GreetJudgesTheLabel : Prop :=
  ∀ s p label maximum revision, hears s p = true → greetShape label maximum revision = true → BindingLaw s →
    s.detachingPortion = none →
    let greeted := fun t : State => exec (.greet p label maximum revision) s = .next t ∧ otherPorts p s t ∧
      (t.port p).greeted = some label ∧ (t.port p).maximum = maximum ∧ (t.port p).frameErrors = 0 ∧
      (t.port p).welcome = true ∧ changes (.time :: .noticeGen :: levelParts) s t
    (s.namedBy p = none →
      ∃ t, greeted t ∧ (t.port p).state = .unbound ∧ (t.port p).bound = none ∧ t.formation = s.formation) ∧
    (∀ c k, s.namedBy p = some c → s.coach c = some k → k.label ≠ label →
      ∃ t, greeted t ∧ (t.port p).state = .mismatched ∧ (t.port p).bound = none ∧
        .greetMismatch p ∈ t.crew.attention ∧ otherCoaches c s t ∧
        t.coach c = some (if (s.port p).state = .bound then { k with link := .expected } else k)) ∧
    (∀ c k, s.namedBy p = some c → s.coach c = some k → k.label = label →
      ∃ t, greeted t ∧ (t.port p).state = .bound ∧ (t.port p).bound = some c ∧ (t.port p).cursor = 1 ∧
        otherCoaches c s t ∧
        ((s.port p).state ≠ .bound → t.coach c = some { k with link := .online } ∧ .coachJoined c ∈ t.crew.attention) ∧
        ((s.port p).state = .bound →
          t.coach c = some k ∧ (t.port p).waiting = [] ∧ (t.port p).outbox = [] ∧ (t.port p).continuation = none))

/-- R143, R152, R154: a QUERY takes a query slot, or is refused at its arrival: UNBOUND, MALFORMED for a tag in flight,
BUSY at the port's quota or with every slot in use; where four refusals wait it is discarded. -/
def Obligations.QueryTakesASlotOrIsRefused : Prop :=
  ∀ s p fields tag, hears s p = true → queryShape fields = true → queryTag fields = some tag →
    let q := s.port p
    let refusedWith := fun code => ∃ t, exec (.query p fields) s = .next t ∧
      portBecomes p (if (q.outbox.filter (·.refusal)).length < 4
        then { q with outbox := q.outbox ++ [⟨tag, refuse code, true⟩] } else q) s t
    (q.state ≠ .bound → refusedWith .unbound) ∧
    (q.state = .bound → q.tagInFlight tag = true → refusedWith .malformed) ∧
    (q.state = .bound → q.tagInFlight tag = false →
      s.settings.queryQuota[p] ≤ q.inFlight ∨ 32 ≤ slotsInUse s → refusedWith .busy) ∧
    (q.state = .bound → q.tagInFlight tag = false → q.inFlight < s.settings.queryQuota[p] → slotsInUse s < 32 →
      ∃ t, exec (.query p fields) s = .next t ∧ portBecomes p { q with waiting := q.waiting ++ [⟨tag, fields⟩] } s t)

/-- R15, R111, R114, R157, R192: what the three receipts of a BOUND port do. -/
def Obligations.ReceiptsAreRecorded : Prop :=
  (∀ s p c e l edition, hears s p = true → (s.port p).bound = some c → (s.entry e).live = some l →
    within 1 65535 edition = true → l.edition = edition →
    ((∃ ticks, l.state = .delivering ticks ∧ l.delivery[c] = true) ∨
      (l.state = .delivered ∨ l.state = .partly) ∧ inTarget s l.target c = true) →
    ∃ t l', exec (.noticeReceipt p (e.val + 1) edition) s = .next t ∧ changes [.entries, .lists, .attention] s t ∧
      otherEntries e s t ∧ (t.entry e).counter = (s.entry e).counter ∧ (t.entry e).live = some l' ∧
      l' = { l with receipted := l.receipted.insert c, state := l'.state } ∧
      (∀ ticks, l.state = .delivering ticks → l.delivery.subset (l.receipted.insert c) = true →
        l'.state = .delivered ∧ .noticeDelivered e ∈ t.crew.attention) ∧
      (∀ ticks, l.state = .delivering ticks → l.delivery.subset (l.receipted.insert c) = false →
        l'.state = l.state ∧ t.crew.attention = s.crew.attention) ∧
      (l.state = .delivered ∨ l.state = .partly → l'.state = l.state ∧ t.crew.attention = s.crew.attention) ∧
      t.listsOf c = { s.listsOf c with inFlight := removeFlight e edition (s.listsOf c).inFlight } ∧
      ∀ d, d ≠ c → t.listsOf d = s.listsOf d) ∧
  (∀ s p, hears s p = true → (s.port p).state = .bound → (s.port p).levelAwaited = true →
    ∃ t, exec (.levelReceipt p) s = .next t ∧ t.port p = { s.port p with levelAwaited := false } ∧ otherPorts p s t ∧
      changes [.ports, .time, .attention] s t ∧ (s.time.mode ≠ .stabling → t.time = s.time) ∧
      (s.time.mode = .stabling → (∃ q, q ≠ p ∧ (s.port q).state = .bound ∧ (s.port q).levelAwaited = true) →
        t.time = s.time) ∧
      (s.time.mode = .stabling → (∀ q, q ≠ p → (s.port q).state = .bound → (s.port q).levelAwaited = false) →
        t.time.mode = .stabled ∧ t.time.stablingDeadline = none ∧ .stabledReached ∈ t.crew.attention)) ∧
  (∀ s p d c, hears s p = true → (s.port p).releaseAwaited = true → (s.port p).bound = some c →
    s.portionOf c = some d → (s.portion d).state = .detaching → s.detachingPortion = some d →
    ((∃ k q, s.portionOf k = some d ∧ s.boundPort k = some q ∧ q ≠ p ∧ (s.port q).releaseAwaited = true) →
      ∃ t, exec (.releaseReceipt p) s = .next t ∧ portBecomes p { s.port p with releaseAwaited := false } s t) ∧
    ((∀ k q, s.portionOf k = some d → s.boundPort k = some q → q ≠ p → (s.port q).releaseAwaited = false) →
      (heldHandles s).Nodup →
      ∃ t, exec (.releaseReceipt p) s = .next t ∧ PortionGone d Port.released s t ∧ .detachDone d ∈ t.crew.attention ∧
        t.formation.gen = nextCount s.formation.gen ∧ changes detachParts s t))

/-- R158: a WAKE on a port that is not BOUND is ignored; on one BOUND to a coach it does what the rule's table says. -/
def Obligations.WakeFollowsItsTable : Prop :=
  (∀ s p, hears s p = true → (s.port p).bound = none → exec (.wake p) s = .next s) ∧
  ∀ s p c k, hears s p = true → (s.port p).bound = some c → s.coach c = some k → s.boundPort c = some p →
    (k.level ≠ .dark → exec (.wake p) s = .next s) ∧
    (k.level = .dark → s.time.mode = .service → k.wakeAllowed = false → exec (.wake p) s = .next s) ∧
    (k.level = .dark → s.time.mode = .service → k.wakeAllowed = true →
      ∃ t, exec (.wake p) s = .next t ∧ t.coach c = some { k with level := .full } ∧ otherCoaches c s t ∧
        t.port p = { s.port p with level := true, levelAwaited := true, refresh := ⟨true, true, true⟩ } ∧
        otherPorts p s t ∧ changes levelParts s t) ∧
    (k.level = .dark → s.time.mode = .stabling → k.wakeAllowed = true →
      ∃ t, exec (.wake p) s = .next t ∧ t.time.mode = .service ∧ t.time.stablingDeadline = none ∧
        (∀ d, t.coach d = (s.coach d).map (fun k => { k with level := k.savedLevel.getD k.level, savedLevel := none })) ∧
        changes (.time :: levelParts) s t) ∧
    (k.level = .dark → (s.time.mode = .stabling ∧ k.wakeAllowed = false ∨ s.time.mode = .stabled) →
      ∃ t, exec (.wake p) s = .next t ∧
        portBecomes p { s.port p with level := true, levelAwaited := true } s t)

/-- R162, R200: received bytes are hunted for frames. A dropped frame raises the port's frame error count, which stays at
65535, and the hunt goes on behind its sync byte; a frame that passes is taken as its command takes it; bytes that come to
no frame do nothing. The command of a frame is the arrival of the frame's bytes: one with an operand or a body length that
its message does not allow is dropped, counted once where no sync byte follows its own, and while the carrier is absent
each sync byte begins a frame that is dropped. That bytes of an unfinished frame are not kept, and that operands too long
for the lengths of a frame are no frame, is log 22 (DESIGN CHOICE), that a GREET with a revision above 255 is dropped log
32 (DESIGN CHOICE), that a character of its label is one byte log 38 (DESIGN CHOICE), and that the operands of these rows
are judged as fields, a QUERY without a single tag among them, log 33 (DEDUCED). -/
def Obligations.DroppedFramesAreCounted : Prop :=
  ∀ s p, receiving s p = true →
    (∀ bytes breaks, let found := receive (breaksAt s p bytes breaks) 0 bytes
      (found = [] → exec (.frameError p bytes breaks) s = .next s) ∧
      (∀ n, found = List.replicate (n + 1) .dropped →
        ∃ t, exec (.frameError p bytes breaks) s = .next t ∧ portBecomes p ((s.port p).errors (n + 1)) s t) ∧
      (∀ f length, found = [.passed f length] → exec (.frameError p bytes breaks) s = exec (f.command p) s) ∧
      ∀ n f length, found = List.replicate (n + 1) .dropped ++ [.passed f length] →
        exec (.frameError p bytes breaks) s = exec (f.command p) (s.updPort p (·.errors (n + 1)))) ∧
    (∀ f : CoachFrame, f.carried = true → exec (f.command p) s = exec (.frameError p f.bytes []) s) ∧
    (∀ f : CoachFrame, f.carried = false → exec (f.command p) s = .next s) ∧
    (∀ f : CoachFrame, (f.command p).wellFormed = false → f.carried = true → (∀ b ∈ f.bytes.tail, b ≠ 0xC5) →
      ∃ t, exec (f.command p) s = .next t ∧ portBecomes p ((s.port p).errors 1) s t) ∧
    ((s.port p).carrier = false → ∀ f : CoachFrame, f.carried = true →
      ∃ t, exec (f.command p) s = .next t ∧ portBecomes p ((s.port p).errors (f.bytes.count 0xC5)) s t)

/-- R151, R153, R155, R161: WELCOME, LEVEL, RELEASE and ANSWER leave in this order of preference, each with its content,
and each is pending no more. -/
def Obligations.ControlMessagesAndAnswersAreSent : Prop :=
  ∀ s p, receiving s p = true →
    let q := s.port p
    (q.welcome = true →
      ∃ t, exec (.welcome p) s = .next t ∧
        portBecomes p { q with
          welcome := false, refresh := .clear, sent := some ⟨.welcome, welcomeFields s p, []⟩ } s t) ∧
    (∀ c k, q.welcome = false → q.level = true → q.state = .bound → q.bound = some c → s.coach c = some k →
      ∃ t, exec (.level p) s = .next t ∧
        portBecomes p { q with level := false, sent := some ⟨.level, [⟨1, u8 k.level.code⟩], []⟩ } s t) ∧
    (q.welcome = false → q.level = false → q.release = true → q.state = .bound →
      ∃ t, exec (.release p) s = .next t ∧
        portBecomes p { q with release := false, sent := some ⟨.release, [], []⟩ } s t) ∧
    (∀ a rest, q.welcome = false → q.level = false → q.release = false → q.outbox = a :: rest →
      ∃ t, exec (.answer p) s = .next t ∧
        portBecomes p { q with
          outbox := rest,
          sent := some ⟨.answer, [⟨1, u8 a.tag⟩, ⟨2, u8 a.reply.status.code⟩, ⟨3, u16 a.reply.generation⟩] ++
            a.reply.results, a.reply.items⟩ } s t)

/-- R108, R109, R155, R156: with no control message and no answer to send, a BOUND port sends the first pending PULL, then
the PUSH offered under the push limit, which goes in flight and makes the coach a holder, then the REFRESH flags that
may be sent. -/
def Obligations.NoticesAndRefreshAreSent : Prop :=
  ∀ s p c, receiving s p = true → (s.port p).state = .bound → (s.port p).bound = some c → (s.port p).welcome = false →
    (s.port p).level = false → (s.port p).release = false → (s.port p).outbox = [] →
    (∀ e, pullOffered s c = some e →
      ∃ t, exec (.pull p) s = .next t ∧ t.port p = { s.port p with sent := some ⟨.pull, [⟨1, u8 (e.val + 1)⟩], []⟩ } ∧
        otherPorts p s t ∧ changes [.ports, .lists] s t ∧
        t.listsOf c = { s.listsOf c with pending := (s.listsOf c).pending.filter (· ≠ .pull e) } ∧
        ∀ d, d ≠ c → t.listsOf d = s.listsOf d) ∧
    (∀ e l, pullOffered s c = none → pushOffered s c = some (e, l) →
      ∃ t, exec (.push p) s = .next t ∧
        t.port p = { s.port p with sent := some ⟨.push, pushFields s e l, []⟩ } ∧ otherPorts p s t ∧
        changes [.ports, .lists, .entries] s t ∧ otherEntries e s t ∧
        t.entry e = (s.entry e).mapLive (fun l => { l with holders := l.holders.insert c }) ∧
        t.listsOf c =
          ⟨((s.listsOf c).dropPush e).pending, (s.listsOf c).inFlight ++ [⟨e, l.edition, s.settings.receiptDeadline⟩]⟩ ∧
        ∀ d, d ≠ c → t.listsOf d = s.listsOf d) ∧
    (pullOffered s c = none → pushOffered s c = none → sendable s p c ≠ .clear →
      ∃ t, exec (.refresh p) s = .next t ∧
        portBecomes p { s.port p with
          refresh := (s.port p).refresh.without (sendable s p c),
          sent := some ⟨.refresh, [⟨1, u8 (sendable s p c).code⟩], []⟩ } s t)

/-! ## Timers -/

/-- R190: a TICK at which no timer runs out raises the tick count and takes a tick from every timer that runs. During
start-up and while RESET_N is held it changes nothing. R17, R64, R104, R109, R113, R192: at a TICK at which timers run
out, each does what its rule says and the others have a tick less; the owners take the tick in the order of R190's table
(DESIGN CHOICE, log 5). -/
def Obligations.ATickAgesEveryTimer : Prop :=
  (∀ s, s.running = false → exec .tick s = .next s) ∧
  (∀ s, s.running = true → s.store.reservations.all (fun r => !holdDue r.coach r) = true →
    (∀ e, (s.entry e).live.all (fun l => !l.lifetime.any (· ≤ 1) && !l.state.due) = true) →
    (∀ p, (s.portion p).deadline.all (1 < ·) = true) → s.time.stablingDeadline.all (1 < ·) = true →
    ∃ t, exec .tick s = .next t ∧ changes [.time, .reservations, .entries, .lists, .portions] s t ∧
      t.time = { s.time with
        tickCount := s.time.tickCount + 1, stablingDeadline := s.time.stablingDeadline.map (· - 1) } ∧
      t.store.reservations = s.store.reservations.map (fun r => match r.hold with
        | .confirmed => r
        | .provisional ticks => { r with hold := .provisional (ticks - 1) }) ∧
      (∀ p, t.portion p = { s.portion p with deadline := (s.portion p).deadline.map (· - 1) }) ∧
      (∀ e, (t.entry e).counter = (s.entry e).counter ∧ (t.entry e).live = (s.entry e).live.map (fun l =>
        { l with
          lifetime := l.lifetime.map (· - 1),
          state := match l.state with
            | .delivering ticks => .delivering (ticks - 1)
            | other => other })) ∧
      ∀ c, (t.listsOf c).pending = (s.listsOf c).pending ∧
        (t.listsOf c).inFlight =
          ((s.listsOf c).inFlight.filter (fun f => 1 < f.ticks)).map (fun f => { f with ticks := f.ticks - 1 })) ∧
  (∀ s, s.running = true → (heldHandles s).Nodup →
    (∀ p ∈ s.detachingPortion, (s.portion p).deadline.all (1 < ·) = true) →
    ∃ t, exec .tick s = .next t ∧
      changes ([.time, .portions, .entries, .lists, .noticeGen] ++ retireParts) s t ∧
      t.time.tickCount = s.time.tickCount + 1 ∧
      t.store.reservations =
        (s.store.reservations.filter (fun r => !holdDue r.coach r)).map Reservation.age ∧
      (∀ c, s.store.reservations.any (holdDue c) = true → .provisionalLapsed c ∈ t.crew.attention) ∧
      (∀ c, t.seatGen c = if s.store.reservations.any (holdDue c) then nextCount (s.seatGen c) else s.seatGen c) ∧
      (∀ p, t.portion p = { s.portion p with deadline := (s.portion p).deadline.map (· - 1) }) ∧
      (∀ e, (s.entry e).live = none → t.entry e = s.entry e) ∧
      (∀ e l, (s.entry e).live = some l →
        (l.lifetime.any (· ≤ 1) = true → t.entry e = ⟨(s.entry e).counter, none⟩) ∧
        (l.lifetime.any (· ≤ 1) = false → l.state.due = true →
          t.entry e = ⟨(s.entry e).counter, some { l with lifetime := l.lifetime.map (· - 1), state := .partly }⟩ ∧
            .noticePartial e ∈ t.crew.attention) ∧
        (l.lifetime.any (· ≤ 1) = false → l.state.due = false → t.entry e = ⟨(s.entry e).counter, some l.age⟩)) ∧
      (∀ c, (t.listsOf c).inFlight =
        ((s.listsOf c).inFlight.filter (fun f => 1 < f.ticks)).map (fun f => { f with ticks := f.ticks - 1 })) ∧
      (s.time.mode = .stabling → s.time.stablingDeadline.any (· ≤ 1) = true →
        t.time.mode = .stabled ∧ t.time.stablingDeadline = none ∧ .stabledReached ∈ t.crew.attention) ∧
      ((s.time.mode ≠ .stabling ∨ s.time.stablingDeadline.any (· ≤ 1) = false) →
        t.time.mode = s.time.mode ∧ t.time.stablingDeadline = s.time.stablingDeadline.map (· - 1))) ∧
  ∀ s p ticks, s.running = true → (heldHandles s).Nodup → s.detachingPortion = some p →
    (s.portion p).deadline = some ticks → ticks ≤ 1 →
    ∃ t, exec .tick s = .next t ∧ changes detachParts s t ∧ t.time.tickCount = s.time.tickCount + 1 ∧
      t.portion p = .vacant ∧ .detachForced p ∈ t.crew.attention ∧
      (∀ q, q ≠ p → t.portion q = { s.portion q with deadline := (s.portion q).deadline.map (· - 1) }) ∧
      (∀ c, t.coach c = if s.portionOf c = some p then none else s.coach c) ∧
      t.store.reservations =
        (s.store.reservations.filter (fun r => !holdDue r.coach r && !runsIn s p r)).map Reservation.age ∧
      t.route.stops = (stopsWithout p s.route.stops).filter (fun x => !x.portions.isEmpty) ∧
      (t.entry p.stopEntry).live = none ∧ t.formation.gen = nextCount s.formation.gen ∧
      t.route.gen = nextCount s.route.gen

/-- R17, R64, R104, R109, R113, R192: what each timer that runs out does. That a timer with its last tick left ends by a
command of its own, ahead of the TICK, that one command takes all due holds of a coach, and that PUSH_TIMEOUT takes the
earliest-sent due item is the model's choice (log 5). -/
def Obligations.TimersThatRunOut : Prop :=
  ∀ s, s.running = true →
    (∀ c, s.store.reservations.any (holdDue c) = true → (heldHandles s).Nodup →
      ∃ t, exec (.provisionalHoldExpiry c) s = .next t ∧ changes retireParts s t ∧
        t.store.reservations = s.store.reservations.filter (fun r => !holdDue c r) ∧
        .provisionalLapsed c ∈ t.crew.attention ∧
        ∀ d, t.seatGen d = if d = c then nextCount (s.seatGen d) else s.seatGen d) ∧
    (∀ e l ticks, (s.entry e).live = some l → l.lifetime = some ticks → ticks ≤ 1 →
      ∃ t, exec (.lifetimeExpiry e) s = .next t ∧ changes noticeParts s t ∧ freedWithPulls e l s t ∧
        t.notice.gen = nextCount s.notice.gen) ∧
    (∀ e l ticks, (s.entry e).live = some l → l.state = .delivering ticks → ticks ≤ 1 →
      ∃ t, exec (.receiptDeadlineExpiry e) s = .next t ∧ changes [.entries, .attention] s t ∧ otherEntries e s t ∧
        t.entry e = ⟨(s.entry e).counter, some { l with state := .partly }⟩ ∧ .noticePartial e ∈ t.crew.attention) ∧
    (∀ c before f after, (s.listsOf c).inFlight = before ++ f :: after → before.all (fun g => 1 < g.ticks) = true →
      f.ticks ≤ 1 →
      ∃ t, exec (.pushTimeout c) s = .next t ∧ changes [.lists] s t ∧
        t.listsOf c = { s.listsOf c with inFlight := before ++ after } ∧ ∀ d, d ≠ c → t.listsOf d = s.listsOf d) ∧
    (∀ p ticks, s.detachingPortion = some p → (s.portion p).deadline = some ticks → ticks ≤ 1 →
      (heldHandles s).Nodup →
      ∃ t, exec .detachDeadlineExpiry s = .next t ∧ changes detachParts s t ∧ PortionGone p Port.released s t ∧
        .detachForced p ∈ t.crew.attention ∧ t.formation.gen = nextCount s.formation.gen) ∧
    (∀ ticks, s.time.mode = .stabling → s.time.stablingDeadline = some ticks → ticks ≤ 1 →
      ∃ t, exec .stablingDeadlineExpiry s = .next t ∧ changes [.time, .attention] s t ∧
        t.time = { s.time with mode := .stabled, stablingDeadline := none } ∧ .stabledReached ∈ t.crew.attention)

/-! ## Train lines -/

/-- R165, R166, R168, R169, R174, R175: an input that departs from the filtered level begins a wait, or takes effect at
once where the group's check time is off; one that comes back ends the wait; a wait that ends gives the line its input's
level, and the functions and the pattern that this changes are handed over. -/
def Obligations.LineInputsAreFiltered : Prop :=
  let follows := fun (n : Fin 8) (level : LineLevel) (s t : State) =>
    (∀ m : Fin 8, t.lines.lines[m] =
      if m = n then { s.lines.lines[n] with filtered := level, input := level, wait := none } else s.lines.lines[m]) ∧
    t.lines.active = activeFunctions t.lines.lines ∧ t.lines.complete = patternComplete t.lines.lines ∧
    t.lines.handOvers = s.lines.handOvers ++ functionEvents s.lines.active t.lines.active ++
      (if t.lines.complete && !s.lines.complete then [.stabling] else []) ∧
    ((t.lines.complete && !s.lines.complete) = true → .pattern ∈ t.crew.attention) ∧
    ((t.lines.complete && !s.lines.complete) = false → t.crew.attention = s.crew.attention) ∧
    changes [.lines, .attention] s t
  (∀ s n level, s.running = true → s.lines.lines[n].input ≠ level → s.lines.lines[n].filtered ≠ level →
    checkTime s n = 0 → ∃ t, exec (.lineInputChange n level) s = .next t ∧ follows n level s t) ∧
  (∀ s n level, s.running = true → s.lines.lines[n].input ≠ level →
    (s.lines.lines[n].filtered = level ∨ checkTime s n ≠ 0) →
    ∃ t, exec (.lineInputChange n level) s = .next t ∧ changes [.lines] s t ∧
      t.lines = { s.lines with lines := update s.lines.lines n (fun l =>
        { l with input := level, wait := if l.filtered = level then none else some (checkTime s n) }) }) ∧
  (∀ s n ms, s.running = true → s.lines.lines[n].wait = some ms →
    ∃ t, exec (.filteredChange n) s = .next t ∧ follows n s.lines.lines[n].input s t)

/-- R16, R42, R45 to R48, R50, R105, R170 to R172, R175, R191, R193: what was handed over is taken by its owner, from any
place of the list of hand-overs (DEDUCED, log 18): each ATTACHED portion that an event fits is moved on and its stop notice
asked for, and in STABLED none is; a coupler that opens completes a detaching, is reported for an ATTACHED portion and
ignored for a VACANT one; a door event ends stabling where the setting says so; the pattern asks for stabling. -/
def Obligations.HandOversAreTaken : Prop :=
  let took := fun (h : HandOver) (i : Instr) (s t : State) =>
    exec i s = .next t ∧ t.lines = { s.lines with handOvers := s.lines.handOvers.erase h } ∧ changes (touches i) s t
  let asked := fun (s t : State) (p : Portion) (kind : NoticeKind) (stop : Option Nat) =>
    (t.portion p = s.portion p → t.entry p.stopEntry = s.entry p.stopEntry) ∧
      ∀ x, t.portion p ≠ s.portion p → stop.bind (findStop s.route.stops) = some x →
        t.entry p.stopEntry = askedEntry s p kind x
  ∀ s, s.running = true →
    (∀ h i, (h, i) ∈ [(HandOver.arrive, Instr.lineArrive), (.depart, .lineDepart), (.approach, .lineApproach),
        (.releaseDoors .left, .lineReleaseDoors .left), (.releaseDoors .right, .lineReleaseDoors .right)] →
      h ∈ s.lines.handOvers → s.time.mode = .stabled → ∃ t, took h i s t ∧ changes [.lines] s t) ∧
    (.arrive ∈ s.lines.handOvers → s.time.mode ≠ .stabled →
      ∃ t, took .arrive .lineArrive s t ∧ generalEntries s t ∧
        (∀ p, asked s t p .atStop (s.portion p).current) ∧ ∀ p, t.portion p =
          match (s.portion p).current with
          | some stop => if (s.portion p).state = .attached ∧ arriveFits s p = true then arrivedRecord s p stop else s.portion p
          | none => s.portion p) ∧
    (.approach ∈ s.lines.handOvers → s.time.mode ≠ .stabled →
      ∃ t, took .approach .lineApproach s t ∧ generalEntries s t ∧
        (∀ p, asked s t p .approaching (s.portion p).current) ∧ ∀ p, t.portion p =
        if (s.portion p).state = .attached ∧ (s.portion p).phase = some .enRoute
        then { s.portion p with phase := some .approaching } else s.portion p) ∧
    (.depart ∈ s.lines.handOvers → s.time.mode ≠ .stabled →
      ∃ t, took .depart .lineDepart s t ∧ generalEntries s t ∧
        (∀ p, asked s t p .nextStop (departStop s p)) ∧ ∀ p, t.portion p =
        match departStop s p with
        | some next => if (s.portion p).state = .attached
          then { s.portion p with phase := some .enRoute, current := some next } else s.portion p
        | none => s.portion p) ∧
    (∀ side, .releaseDoors side ∈ s.lines.handOvers → s.time.mode ≠ .stabled →
      ∃ t, took (.releaseDoors side) (.lineReleaseDoors side) s t ∧ t.notice = s.notice ∧ ∀ p, t.portion p =
        if (s.portion p).state = .attached ∧ (s.portion p).phase = some .atPlatform
        then { s.portion p with phase := some .doorsReleased } else s.portion p) ∧
    (∀ q, .coupler q true ∈ s.lines.handOvers →
      ∃ t, took (.coupler q true) (.couplerEvent q true) s t ∧ changes [.lines] s t) ∧
    (∀ q, .coupler q false ∈ s.lines.handOvers → (s.portion (couplerOf q)).state = .attached →
      ∃ t, took (.coupler q false) (.couplerEvent q false) s t ∧ changes [.lines, .attention] s t ∧
        .unexpectedUncouple (couplerOf q) ∈ t.crew.attention) ∧
    (∀ q, .coupler q false ∈ s.lines.handOvers → (s.portion (couplerOf q)).state = .detaching → (heldHandles s).Nodup →
      ∃ t, took (.coupler q false) (.couplerEvent q false) s t ∧ PortionGone (couplerOf q) Port.released s t ∧
        .detachDone (couplerOf q) ∈ t.crew.attention ∧ t.formation.gen = nextCount s.formation.gen) ∧
    (∀ q, .coupler q false ∈ s.lines.handOvers → (s.portion (couplerOf q)).state = .vacant →
      ∃ t, took (.coupler q false) (.couplerEvent q false) s t ∧ changes [.lines] s t) ∧
    (.door ∈ s.lines.handOvers →
      ∃ t, took .door .doorEvent s t ∧
        t.time.mode = (if s.settings.doorsEndStabling then .service else s.time.mode) ∧
        (s.settings.doorsEndStabling = false ∨ s.time.mode = .service → changes [.lines] s t)) ∧
    (.stabling ∈ s.lines.handOvers →
      ∃ t, took .stabling .stablingRequest s t ∧ (s.time.mode ≠ .service → changes [.lines] s t) ∧
        (s.time.mode = .service → t.time.mode ≠ .service ∧
          ∀ c, t.coach c = (s.coach c).map (fun k => { k with level := .dark, savedLevel := some k.level })))

/-! ## Power-on, RESET_N and the end of start-up -/

/-- R195, R197: POWER_ON puts every record at its power-on value; the levels on the pins and the queue of commands, which
are the outside's, stay (DESIGN CHOICE, log 20). RESET_N held begins a restart and lets nothing be driven; the restart is
made when it is released: the tables of the journey stay, and what R197 lists is cleared; a DELIVERING notice restarts
its delivery (R121). That ATN0, ATN1 and ANSWER_READY are not driven while RESET_N is held is the model's choice (DESIGN
CHOICE, log 3), and so are the filtered levels, LOW from power-on (DESIGN CHOICE, log 3) and kept over the release of
RESET_N (DESIGN CHOICE, log 39); that the restart empties the hand-overs is its reading (DEDUCED, log 18). -/
def Obligations.PowerOnAndResetRestart : Prop :=
  (∀ s strap, ∃ t, exec (.powerOn strap) s = .next t ∧ t.formation = State.reset.formation ∧
    t.route = State.reset.route ∧ t.store = State.reset.store ∧ t.memory = State.reset.memory ∧
    t.notice = State.reset.notice ∧ t.arbiter = State.reset.arbiter ∧ t.crew = State.reset.crew ∧
    t.settings = State.reset.settings ∧ (∀ p, t.port p = Port.powerOn (s.port p).carrier) ∧
    (∀ n : Fin 8, t.lines.lines[n] = Line.powerOn s.lines.lines[n].input) ∧
    t.lines.checkTimes = State.reset.lines.checkTimes ∧ t.lines.active = [] ∧ t.lines.complete = false ∧
    t.lines.handOvers = [] ∧
    t.time =
      { tickCount := 0, mode := .service, stablingDeadline := none, startKind := strap, startUp := some .powerOn,
        resetHeld := s.time.resetHeld } ∧
    t.pending = s.pending) ∧
  (∀ s, ∃ t, exec .resetNAsserted s = .next t ∧ changes [.time, .out] s t ∧
    t.time = { s.time with
      resetHeld := true, startUp := if s.time.startUp = some .powerOn then some .powerOn else some .warm } ∧
    t.crew.out = [] ∧ atn0 t = false ∧ atn1 t = false ∧ answerReadyLine t = false ∧ ∀ p, carrierOut t p = false) ∧
  (∀ s, s.time.resetHeld = true → s.time.startUp ≠ some .powerOn →
    ∃ t, exec .resetNReleased s = .next t ∧ changes (touches .resetNReleased) s t ∧
      (∀ c, t.coach c = (s.coach c).map (fun k => { k with link := .expected })) ∧
      (∀ p, t.port p = Port.powerOn (s.port p).carrier) ∧ t.crew = ⟨[], none, none, [], []⟩ ∧
      t.arbiter = ⟨15, 0⟩ ∧ (∀ c, t.listsOf c = ⟨[], []⟩) ∧
      (∀ e, t.entry e = (s.entry e).mapLive (fun l => match l.state with
        | .delivering _ => { l with
            state := .delivering s.settings.receiptDeadline, receipted := CoachSet.none, delivery := CoachSet.none,
            holders := CoachSet.none }
        | _ => { l with holders := CoachSet.none })) ∧
      t.store.reservations = s.store.reservations.map (fun r => match r.hold with
        | .confirmed => r
        | .provisional _ => { r with hold := .provisional s.settings.provisionalHold }) ∧
      (∀ n : Fin 8, t.lines.lines[n] = { s.lines.lines[n] with wait := none }) ∧
      t.lines.checkTimes = s.lines.checkTimes ∧ t.lines.handOvers = [] ∧
      t.time = { s.time with
        resetHeld := false, startUp := some .warm, stablingDeadline := none,
        mode := if s.time.mode = .stabling then .stabled else s.time.mode }) ∧
  (∀ s, s.time.resetHeld = true → s.time.startUp = some .powerOn →
    ∃ t, exec .resetNReleased s = .next t ∧ changes [.time] s t ∧ t.time = { s.time with resetHeld := false }) ∧
  ∀ s, s.time.resetHeld = false → exec .resetNReleased s = .next s

/-- R80, R84, R144, R167, R185, R196: the end of a start-up with no portion DETACHING: STARTED is recorded, the blocks that
failed a CHECKED test are excluded, the lines are sampled without events, every port drives its carrier, and one with an
incoming carrier begins its qualification wait. That the failed blocks are the operand is log 21 (DESIGN CHOICE). R23: a
portion that a warm restart has left DETACHING completes as forced. -/
def Obligations.StartUpEnds : Prop :=
  let ended := fun (s t : State) =>
    .started ∈ t.crew.attention ∧ (s.settings.masked[(0 : Fin 16)] = false → atn0 t = true) ∧
      (.poolLow ∈ t.crew.attention ↔ t.memory.free < s.settings.lowWater) ∧
      (s.time.startUp = some .warm → s.time.mode = .stabled → .stabledReached ∈ t.crew.attention) ∧
      (∀ n : Fin 8, t.lines.lines[n] = { s.lines.lines[n] with filtered := s.lines.lines[n].input, wait := none }) ∧
      t.lines.active = activeFunctions t.lines.lines ∧ t.lines.complete = patternComplete t.lines.lines ∧
      t.lines.handOvers = s.lines.handOvers ∧ (.pattern ∈ t.crew.attention ↔ .pattern ∈ s.crew.attention) ∧
      ∀ p, carrierOut t p = true
  (∀ s kind failed, s.time.startUp = some kind → s.time.resetHeld = false →
    (Instr.startUpEnd failed).wellFormed = true → (kind = .warm → s.detachingPortion = none) →
    ∃ t, exec (.startUpEnd failed) s = .next t ∧ changes [.time, .counts, .attention, .lines, .ports] s t ∧
      ended s t ∧ t.time = { s.time with startUp := none } ∧
      (kind = .powerOn → s.time.startKind = .checked →
        t.memory.excludedBlocks = failed ∧ t.memory.free = 2048 - failed.length) ∧
      (kind = .warm ∨ s.time.startKind = .quick → t.memory = s.memory) ∧
      (∀ c, c ≠ .started → c ≠ .stabledReached → c ≠ .poolLow → (c ∈ t.crew.attention ↔ c ∈ s.crew.attention)) ∧
      ∀ p, t.port p = { s.port p with wait := if (s.port p).carrier = true then some s.settings.lossGrace else none }) ∧
  ∀ s p failed, s.time.startUp = some .warm → s.time.resetHeld = false → s.detachingPortion = some p →
    (heldHandles s).Nodup →
    ∃ t, exec (.startUpEnd failed) s = .next t ∧ changes (.lines :: detachParts) s t ∧ ended s t ∧
      PortionGone p (fun q =>
        { q.released with wait := if q.carrier = true then some s.settings.lossGrace else none }) s t ∧
      .detachForced p ∈ t.crew.attention ∧ t.formation.gen = nextCount s.formation.gen ∧
      t.time.startUp = none ∧ (s.time.mode ≠ .stabling → t.time = { s.time with startUp := none })
end

