-- ==== Sys2Proof/Laws/Tables.lean ====
section
/-! SUPPORT. What reading a table after building or changing it gives. -/

namespace Sys2Proof.Machine

@[simp] theorem get_tabulate {α : Type} {n : Nat} (f : Fin n → α) (i : Fin n) : (tabulate f)[i] = f i := by
  simp [tabulate]

@[simp] theorem get_update {α : Type} {n : Nat} (v : Vector α n) (i j : Fin n) (f : α → α) :
    (update v i f)[j] = if j = i then f v[i] else v[j] := by
  by_cases h : j = i
  · subst h; simp [update]
  · have : i.val ≠ j.val := fun e => h (Fin.ext e.symm)
    simp [update, h, this]

theorem ext_table {α : Type} {n : Nat} {v w : Vector α n} (h : ∀ i : Fin n, v[i] = w[i]) : v = w := by
  apply Vector.ext
  intro i hi
  exact h ⟨i, hi⟩

@[simp] theorem mem_all16 (c : Fin 16) : c ∈ all16 := List.mem_finRange c
@[simp] theorem mem_all24 (e : Fin 24) : e ∈ all24 := List.mem_finRange e
@[simp] theorem mem_all8 (n : Fin 8) : n ∈ all8 := List.mem_finRange n

@[simp] theorem Portions.get_update (t : Portions) (p q : Portion) (f : PortionRecord → PortionRecord) :
    (t.update p f).get q = if q = p then f (t.get p) else t.get q := by
  cases p <;> cases q <;> rfl

end Sys2Proof.Machine
end

