-- ==== Sys2Proof/Laws/State.lean ====
section
/-! SUPPORT. What each update of one record leaves of each block, and what the readers of the tables give after it. -/

namespace Sys2Proof.Machine

variable (s : State)

@[simp] theorem setCoach_route (c : Fin 16) (k : Option Coach) : (s.setCoach c k).route = s.route := rfl
@[simp] theorem setCoach_store (c : Fin 16) (k : Option Coach) : (s.setCoach c k).store = s.store := rfl
@[simp] theorem setCoach_memory (c : Fin 16) (k : Option Coach) : (s.setCoach c k).memory = s.memory := rfl
@[simp] theorem setCoach_notice (c : Fin 16) (k : Option Coach) : (s.setCoach c k).notice = s.notice := rfl
@[simp] theorem setCoach_arbiter (c : Fin 16) (k : Option Coach) : (s.setCoach c k).arbiter = s.arbiter := rfl
@[simp] theorem setCoach_ports (c : Fin 16) (k : Option Coach) : (s.setCoach c k).ports = s.ports := rfl
@[simp] theorem setCoach_crew (c : Fin 16) (k : Option Coach) : (s.setCoach c k).crew = s.crew := rfl
@[simp] theorem setCoach_lines (c : Fin 16) (k : Option Coach) : (s.setCoach c k).lines = s.lines := rfl
@[simp] theorem setCoach_time (c : Fin 16) (k : Option Coach) : (s.setCoach c k).time = s.time := rfl
@[simp] theorem setCoach_settings (c : Fin 16) (k : Option Coach) : (s.setCoach c k).settings = s.settings := rfl
@[simp] theorem setCoach_pending (c : Fin 16) (k : Option Coach) : (s.setCoach c k).pending = s.pending := rfl

@[simp] theorem updCoach_route (c : Fin 16) (f : Coach → Coach) : (s.updCoach c f).route = s.route := rfl
@[simp] theorem updCoach_store (c : Fin 16) (f : Coach → Coach) : (s.updCoach c f).store = s.store := rfl
@[simp] theorem updCoach_memory (c : Fin 16) (f : Coach → Coach) : (s.updCoach c f).memory = s.memory := rfl
@[simp] theorem updCoach_notice (c : Fin 16) (f : Coach → Coach) : (s.updCoach c f).notice = s.notice := rfl
@[simp] theorem updCoach_arbiter (c : Fin 16) (f : Coach → Coach) : (s.updCoach c f).arbiter = s.arbiter := rfl
@[simp] theorem updCoach_ports (c : Fin 16) (f : Coach → Coach) : (s.updCoach c f).ports = s.ports := rfl
@[simp] theorem updCoach_crew (c : Fin 16) (f : Coach → Coach) : (s.updCoach c f).crew = s.crew := rfl
@[simp] theorem updCoach_lines (c : Fin 16) (f : Coach → Coach) : (s.updCoach c f).lines = s.lines := rfl
@[simp] theorem updCoach_time (c : Fin 16) (f : Coach → Coach) : (s.updCoach c f).time = s.time := rfl
@[simp] theorem updCoach_settings (c : Fin 16) (f : Coach → Coach) : (s.updCoach c f).settings = s.settings := rfl
@[simp] theorem updCoach_pending (c : Fin 16) (f : Coach → Coach) : (s.updCoach c f).pending = s.pending := rfl

@[simp] theorem updPortion_route (p : Portion) (f : PortionRecord → PortionRecord) : (s.updPortion p f).route = s.route := rfl
@[simp] theorem updPortion_store (p : Portion) (f : PortionRecord → PortionRecord) : (s.updPortion p f).store = s.store := rfl
@[simp] theorem updPortion_memory (p : Portion) (f : PortionRecord → PortionRecord) : (s.updPortion p f).memory = s.memory := rfl
@[simp] theorem updPortion_notice (p : Portion) (f : PortionRecord → PortionRecord) : (s.updPortion p f).notice = s.notice := rfl
@[simp] theorem updPortion_arbiter (p : Portion) (f : PortionRecord → PortionRecord) : (s.updPortion p f).arbiter = s.arbiter := rfl
@[simp] theorem updPortion_ports (p : Portion) (f : PortionRecord → PortionRecord) : (s.updPortion p f).ports = s.ports := rfl
@[simp] theorem updPortion_crew (p : Portion) (f : PortionRecord → PortionRecord) : (s.updPortion p f).crew = s.crew := rfl
@[simp] theorem updPortion_lines (p : Portion) (f : PortionRecord → PortionRecord) : (s.updPortion p f).lines = s.lines := rfl
@[simp] theorem updPortion_time (p : Portion) (f : PortionRecord → PortionRecord) : (s.updPortion p f).time = s.time := rfl
@[simp] theorem updPortion_settings (p : Portion) (f : PortionRecord → PortionRecord) : (s.updPortion p f).settings = s.settings := rfl
@[simp] theorem updPortion_pending (p : Portion) (f : PortionRecord → PortionRecord) : (s.updPortion p f).pending = s.pending := rfl

@[simp] theorem updPort_formation (p : Fin 16) (f : Port → Port) : (s.updPort p f).formation = s.formation := rfl
@[simp] theorem updPort_route (p : Fin 16) (f : Port → Port) : (s.updPort p f).route = s.route := rfl
@[simp] theorem updPort_store (p : Fin 16) (f : Port → Port) : (s.updPort p f).store = s.store := rfl
@[simp] theorem updPort_memory (p : Fin 16) (f : Port → Port) : (s.updPort p f).memory = s.memory := rfl
@[simp] theorem updPort_notice (p : Fin 16) (f : Port → Port) : (s.updPort p f).notice = s.notice := rfl
@[simp] theorem updPort_arbiter (p : Fin 16) (f : Port → Port) : (s.updPort p f).arbiter = s.arbiter := rfl
@[simp] theorem updPort_crew (p : Fin 16) (f : Port → Port) : (s.updPort p f).crew = s.crew := rfl
@[simp] theorem updPort_lines (p : Fin 16) (f : Port → Port) : (s.updPort p f).lines = s.lines := rfl
@[simp] theorem updPort_time (p : Fin 16) (f : Port → Port) : (s.updPort p f).time = s.time := rfl
@[simp] theorem updPort_settings (p : Fin 16) (f : Port → Port) : (s.updPort p f).settings = s.settings := rfl
@[simp] theorem updPort_pending (p : Fin 16) (f : Port → Port) : (s.updPort p f).pending = s.pending := rfl

@[simp] theorem updEntry_formation (e : Fin 24) (f : NoticeEntry → NoticeEntry) : (s.updEntry e f).formation = s.formation := rfl
@[simp] theorem updEntry_route (e : Fin 24) (f : NoticeEntry → NoticeEntry) : (s.updEntry e f).route = s.route := rfl
@[simp] theorem updEntry_store (e : Fin 24) (f : NoticeEntry → NoticeEntry) : (s.updEntry e f).store = s.store := rfl
@[simp] theorem updEntry_memory (e : Fin 24) (f : NoticeEntry → NoticeEntry) : (s.updEntry e f).memory = s.memory := rfl
@[simp] theorem updEntry_arbiter (e : Fin 24) (f : NoticeEntry → NoticeEntry) : (s.updEntry e f).arbiter = s.arbiter := rfl
@[simp] theorem updEntry_ports (e : Fin 24) (f : NoticeEntry → NoticeEntry) : (s.updEntry e f).ports = s.ports := rfl
@[simp] theorem updEntry_crew (e : Fin 24) (f : NoticeEntry → NoticeEntry) : (s.updEntry e f).crew = s.crew := rfl
@[simp] theorem updEntry_lines (e : Fin 24) (f : NoticeEntry → NoticeEntry) : (s.updEntry e f).lines = s.lines := rfl
@[simp] theorem updEntry_time (e : Fin 24) (f : NoticeEntry → NoticeEntry) : (s.updEntry e f).time = s.time := rfl
@[simp] theorem updEntry_settings (e : Fin 24) (f : NoticeEntry → NoticeEntry) : (s.updEntry e f).settings = s.settings := rfl
@[simp] theorem updEntry_pending (e : Fin 24) (f : NoticeEntry → NoticeEntry) : (s.updEntry e f).pending = s.pending := rfl

@[simp] theorem updLists_formation (c : Fin 16) (f : CoachLists → CoachLists) : (s.updLists c f).formation = s.formation := rfl
@[simp] theorem updLists_route (c : Fin 16) (f : CoachLists → CoachLists) : (s.updLists c f).route = s.route := rfl
@[simp] theorem updLists_store (c : Fin 16) (f : CoachLists → CoachLists) : (s.updLists c f).store = s.store := rfl
@[simp] theorem updLists_memory (c : Fin 16) (f : CoachLists → CoachLists) : (s.updLists c f).memory = s.memory := rfl
@[simp] theorem updLists_arbiter (c : Fin 16) (f : CoachLists → CoachLists) : (s.updLists c f).arbiter = s.arbiter := rfl
@[simp] theorem updLists_ports (c : Fin 16) (f : CoachLists → CoachLists) : (s.updLists c f).ports = s.ports := rfl
@[simp] theorem updLists_crew (c : Fin 16) (f : CoachLists → CoachLists) : (s.updLists c f).crew = s.crew := rfl
@[simp] theorem updLists_lines (c : Fin 16) (f : CoachLists → CoachLists) : (s.updLists c f).lines = s.lines := rfl
@[simp] theorem updLists_time (c : Fin 16) (f : CoachLists → CoachLists) : (s.updLists c f).time = s.time := rfl
@[simp] theorem updLists_settings (c : Fin 16) (f : CoachLists → CoachLists) : (s.updLists c f).settings = s.settings := rfl
@[simp] theorem updLists_pending (c : Fin 16) (f : CoachLists → CoachLists) : (s.updLists c f).pending = s.pending := rfl

@[simp] theorem updLine_formation (n : Fin 8) (f : Line → Line) : (s.updLine n f).formation = s.formation := rfl
@[simp] theorem updLine_route (n : Fin 8) (f : Line → Line) : (s.updLine n f).route = s.route := rfl
@[simp] theorem updLine_store (n : Fin 8) (f : Line → Line) : (s.updLine n f).store = s.store := rfl
@[simp] theorem updLine_memory (n : Fin 8) (f : Line → Line) : (s.updLine n f).memory = s.memory := rfl
@[simp] theorem updLine_notice (n : Fin 8) (f : Line → Line) : (s.updLine n f).notice = s.notice := rfl
@[simp] theorem updLine_arbiter (n : Fin 8) (f : Line → Line) : (s.updLine n f).arbiter = s.arbiter := rfl
@[simp] theorem updLine_ports (n : Fin 8) (f : Line → Line) : (s.updLine n f).ports = s.ports := rfl
@[simp] theorem updLine_crew (n : Fin 8) (f : Line → Line) : (s.updLine n f).crew = s.crew := rfl
@[simp] theorem updLine_time (n : Fin 8) (f : Line → Line) : (s.updLine n f).time = s.time := rfl
@[simp] theorem updLine_settings (n : Fin 8) (f : Line → Line) : (s.updLine n f).settings = s.settings := rfl
@[simp] theorem updLine_pending (n : Fin 8) (f : Line → Line) : (s.updLine n f).pending = s.pending := rfl

@[simp] theorem setCoach_portions (c : Fin 16) (k : Option Coach) :
    (s.setCoach c k).formation.portions = s.formation.portions := rfl
@[simp] theorem setCoach_gen (c : Fin 16) (k : Option Coach) : (s.setCoach c k).formation.gen = s.formation.gen := rfl
@[simp] theorem updCoach_portions (c : Fin 16) (f : Coach → Coach) :
    (s.updCoach c f).formation.portions = s.formation.portions := rfl
@[simp] theorem updCoach_gen (c : Fin 16) (f : Coach → Coach) : (s.updCoach c f).formation.gen = s.formation.gen := rfl
@[simp] theorem updPortion_coaches (p : Portion) (f : PortionRecord → PortionRecord) :
    (s.updPortion p f).formation.coaches = s.formation.coaches := rfl
@[simp] theorem updPortion_gen (p : Portion) (f : PortionRecord → PortionRecord) :
    (s.updPortion p f).formation.gen = s.formation.gen := rfl
@[simp] theorem updEntry_lists (e : Fin 24) (f : NoticeEntry → NoticeEntry) :
    (s.updEntry e f).notice.lists = s.notice.lists := rfl
@[simp] theorem updEntry_gen (e : Fin 24) (f : NoticeEntry → NoticeEntry) :
    (s.updEntry e f).notice.gen = s.notice.gen := rfl
@[simp] theorem updLists_entries (c : Fin 16) (f : CoachLists → CoachLists) :
    (s.updLists c f).notice.entries = s.notice.entries := rfl
@[simp] theorem updLists_gen (c : Fin 16) (f : CoachLists → CoachLists) :
    (s.updLists c f).notice.gen = s.notice.gen := rfl

/-! ## The readers after the updates -/

@[simp] theorem coach_setCoach (c d : Fin 16) (k : Option Coach) :
    (s.setCoach c k).coach d = if d = c then k else s.coach d := by
  simp only [State.coach, State.setCoach, get_update]
@[simp] theorem coach_updCoach (c d : Fin 16) (f : Coach → Coach) :
    (s.updCoach c f).coach d = if d = c then (s.coach c).map f else s.coach d := by
  simp only [State.coach, State.updCoach, get_update]
@[simp] theorem portion_updPortion (p q : Portion) (f : PortionRecord → PortionRecord) :
    (s.updPortion p f).portion q = if q = p then f (s.portion p) else s.portion q := by
  simp only [State.portion, State.updPortion, Portions.get_update]
@[simp] theorem port_updPort (p q : Fin 16) (f : Port → Port) :
    (s.updPort p f).port q = if q = p then f (s.port p) else s.port q := by
  simp only [State.port, State.updPort, get_update]
@[simp] theorem entry_updEntry (e d : Fin 24) (f : NoticeEntry → NoticeEntry) :
    (s.updEntry e f).entry d = if d = e then f (s.entry e) else s.entry d := by
  simp only [State.entry, State.updEntry, get_update]
@[simp] theorem listsOf_updLists (c d : Fin 16) (f : CoachLists → CoachLists) :
    (s.updLists c f).listsOf d = if d = c then f (s.listsOf c) else s.listsOf d := by
  simp only [State.listsOf, State.updLists, get_update]

/-! ## A reader depends on its block alone -/

theorem coach_congr {s t : State} (h : t.formation = s.formation) (x : Fin 16) : t.coach x = s.coach x := by
  simp only [State.coach, h]
theorem portion_congr {s t : State} (h : t.formation = s.formation) (x : Portion) : t.portion x = s.portion x := by
  simp only [State.portion, h]
theorem port_congr {s t : State} (h : t.ports = s.ports) (x : Fin 16) : t.port x = s.port x := by
  simp only [State.port, h]
theorem entry_congr {s t : State} (h : t.notice = s.notice) (x : Fin 24) : t.entry x = s.entry x := by
  simp only [State.entry, h]
theorem listsOf_congr {s t : State} (h : t.notice = s.notice) (x : Fin 16) : t.listsOf x = s.listsOf x := by
  simp only [State.listsOf, h]
theorem seatGen_congr {s t : State} (h : t.store = s.store) (x : Fin 16) : t.seatGen x = s.seatGen x := by
  simp only [State.seatGen, h]
@[simp] theorem portion_setCoach (c : Fin 16) (k : Option Coach) (x : Portion) : (s.setCoach c k).portion x = s.portion x := rfl
@[simp] theorem port_setCoach (c : Fin 16) (k : Option Coach) (x : Fin 16) : (s.setCoach c k).port x = s.port x := rfl
@[simp] theorem entry_setCoach (c : Fin 16) (k : Option Coach) (x : Fin 24) : (s.setCoach c k).entry x = s.entry x := rfl
@[simp] theorem listsOf_setCoach (c : Fin 16) (k : Option Coach) (x : Fin 16) : (s.setCoach c k).listsOf x = s.listsOf x := rfl
@[simp] theorem seatGen_setCoach (c : Fin 16) (k : Option Coach) (x : Fin 16) : (s.setCoach c k).seatGen x = s.seatGen x := rfl
@[simp] theorem portion_updCoach (c : Fin 16) (f : Coach → Coach) (x : Portion) : (s.updCoach c f).portion x = s.portion x := rfl
@[simp] theorem port_updCoach (c : Fin 16) (f : Coach → Coach) (x : Fin 16) : (s.updCoach c f).port x = s.port x := rfl
@[simp] theorem entry_updCoach (c : Fin 16) (f : Coach → Coach) (x : Fin 24) : (s.updCoach c f).entry x = s.entry x := rfl
@[simp] theorem listsOf_updCoach (c : Fin 16) (f : Coach → Coach) (x : Fin 16) : (s.updCoach c f).listsOf x = s.listsOf x := rfl
@[simp] theorem seatGen_updCoach (c : Fin 16) (f : Coach → Coach) (x : Fin 16) : (s.updCoach c f).seatGen x = s.seatGen x := rfl
@[simp] theorem coach_updPortion (p : Portion) (f : PortionRecord → PortionRecord) (x : Fin 16) : (s.updPortion p f).coach x = s.coach x := rfl
@[simp] theorem port_updPortion (p : Portion) (f : PortionRecord → PortionRecord) (x : Fin 16) : (s.updPortion p f).port x = s.port x := rfl
@[simp] theorem entry_updPortion (p : Portion) (f : PortionRecord → PortionRecord) (x : Fin 24) : (s.updPortion p f).entry x = s.entry x := rfl
@[simp] theorem listsOf_updPortion (p : Portion) (f : PortionRecord → PortionRecord) (x : Fin 16) : (s.updPortion p f).listsOf x = s.listsOf x := rfl
@[simp] theorem seatGen_updPortion (p : Portion) (f : PortionRecord → PortionRecord) (x : Fin 16) : (s.updPortion p f).seatGen x = s.seatGen x := rfl
@[simp] theorem coach_updPort (p : Fin 16) (f : Port → Port) (x : Fin 16) : (s.updPort p f).coach x = s.coach x := rfl
@[simp] theorem portion_updPort (p : Fin 16) (f : Port → Port) (x : Portion) : (s.updPort p f).portion x = s.portion x := rfl
@[simp] theorem entry_updPort (p : Fin 16) (f : Port → Port) (x : Fin 24) : (s.updPort p f).entry x = s.entry x := rfl
@[simp] theorem listsOf_updPort (p : Fin 16) (f : Port → Port) (x : Fin 16) : (s.updPort p f).listsOf x = s.listsOf x := rfl
@[simp] theorem seatGen_updPort (p : Fin 16) (f : Port → Port) (x : Fin 16) : (s.updPort p f).seatGen x = s.seatGen x := rfl
@[simp] theorem coach_updEntry (e : Fin 24) (f : NoticeEntry → NoticeEntry) (x : Fin 16) : (s.updEntry e f).coach x = s.coach x := rfl
@[simp] theorem portion_updEntry (e : Fin 24) (f : NoticeEntry → NoticeEntry) (x : Portion) : (s.updEntry e f).portion x = s.portion x := rfl
@[simp] theorem port_updEntry (e : Fin 24) (f : NoticeEntry → NoticeEntry) (x : Fin 16) : (s.updEntry e f).port x = s.port x := rfl
@[simp] theorem listsOf_updEntry (e : Fin 24) (f : NoticeEntry → NoticeEntry) (x : Fin 16) : (s.updEntry e f).listsOf x = s.listsOf x := rfl
@[simp] theorem seatGen_updEntry (e : Fin 24) (f : NoticeEntry → NoticeEntry) (x : Fin 16) : (s.updEntry e f).seatGen x = s.seatGen x := rfl
@[simp] theorem coach_updLists (c : Fin 16) (f : CoachLists → CoachLists) (x : Fin 16) : (s.updLists c f).coach x = s.coach x := rfl
@[simp] theorem portion_updLists (c : Fin 16) (f : CoachLists → CoachLists) (x : Portion) : (s.updLists c f).portion x = s.portion x := rfl
@[simp] theorem port_updLists (c : Fin 16) (f : CoachLists → CoachLists) (x : Fin 16) : (s.updLists c f).port x = s.port x := rfl
@[simp] theorem entry_updLists (c : Fin 16) (f : CoachLists → CoachLists) (x : Fin 24) : (s.updLists c f).entry x = s.entry x := rfl
@[simp] theorem seatGen_updLists (c : Fin 16) (f : CoachLists → CoachLists) (x : Fin 16) : (s.updLists c f).seatGen x = s.seatGen x := rfl
@[simp] theorem coach_updLine (n : Fin 8) (f : Line → Line) (x : Fin 16) : (s.updLine n f).coach x = s.coach x := rfl
@[simp] theorem portion_updLine (n : Fin 8) (f : Line → Line) (x : Portion) : (s.updLine n f).portion x = s.portion x := rfl
@[simp] theorem port_updLine (n : Fin 8) (f : Line → Line) (x : Fin 16) : (s.updLine n f).port x = s.port x := rfl
@[simp] theorem entry_updLine (n : Fin 8) (f : Line → Line) (x : Fin 24) : (s.updLine n f).entry x = s.entry x := rfl
@[simp] theorem listsOf_updLine (n : Fin 8) (f : Line → Line) (x : Fin 16) : (s.updLine n f).listsOf x = s.listsOf x := rfl
@[simp] theorem seatGen_updLine (n : Fin 8) (f : Line → Line) (x : Fin 16) : (s.updLine n f).seatGen x = s.seatGen x := rfl

end Sys2Proof.Machine
end

