-- ==== Sys2Proof/Laws/Changes.lean ====
section
/-! SUPPORT. One lemma for each shared operation: the parts of the state that it may change. A later proof about a
part takes it from here and unfolds nothing. -/

namespace Sys2Proof.Machine

theorem Part.same_refl (x : Part) (s : State) : x.same s s := by
  cases x <;> first | rfl | exact ⟨rfl, rfl, rfl, rfl⟩

theorem Part.same_trans (x : Part) {s t u : State} (h : x.same s t) (k : x.same t u) : x.same s u := by
  cases x <;> simp_all [Part.same]

theorem changes_refl (l : List Part) (s : State) : changes l s s := fun x _ => x.same_refl s

theorem changes.mono {l l' : List Part} {s t : State} (h : changes l s t) (k : l.all (· ∈ l') = true) :
    changes l' s t := by
  intro x hx
  refine h x (fun hm => hx ?_)
  simpa using List.all_eq_true.mp k x hm

theorem changes.trans {l : List Part} {s t u : State} (h : changes l s t) (k : changes l t u) : changes l s u :=
  fun x hx => x.same_trans (h x hx) (k x hx)

theorem changes.foldl {α : Type} {l : List Part} (f : State → α → State) (h : ∀ s a, changes l s (f s a)) :
    ∀ (as : List α) (s : State), changes l s (as.foldl f s)
  | [], s => changes_refl l s
  | a :: as, s => (h s a).trans (changes.foldl f h as (f s a))

theorem changes.ite {l : List Part} {s t u : State} {c : Prop} [Decidable c] (h : changes l s t) (k : changes l s u) :
    changes l s (if c then t else u) := by
  split <;> assumption

theorem setCoach_changes (c : Fin 16) (k : Option Coach) (s : State) : changes [.coaches] s (s.setCoach c k) := by
  intro x hx; cases x <;> first | rfl | exact ⟨rfl, rfl, rfl, rfl⟩ | exact absurd (by decide) hx

theorem updCoach_changes (c : Fin 16) (f : Coach → Coach) (s : State) : changes [.coaches] s (s.updCoach c f) := by
  intro x hx; cases x <;> first | rfl | exact ⟨rfl, rfl, rfl, rfl⟩ | exact absurd (by decide) hx

theorem updPortion_changes (p : Portion) (f : PortionRecord → PortionRecord) (s : State) : changes [.portions] s (s.updPortion p f) := by
  intro x hx; cases x <;> first | rfl | exact ⟨rfl, rfl, rfl, rfl⟩ | exact absurd (by decide) hx

theorem updPort_changes (p : Fin 16) (f : Port → Port) (s : State) : changes [.ports] s (s.updPort p f) := by
  intro x hx; cases x <;> first | rfl | exact ⟨rfl, rfl, rfl, rfl⟩ | exact absurd (by decide) hx

theorem updEntry_changes (e : Fin 24) (f : NoticeEntry → NoticeEntry) (s : State) : changes [.entries] s (s.updEntry e f) := by
  intro x hx; cases x <;> first | rfl | exact ⟨rfl, rfl, rfl, rfl⟩ | exact absurd (by decide) hx

theorem updLists_changes (c : Fin 16) (f : CoachLists → CoachLists) (s : State) : changes [.lists] s (s.updLists c f) := by
  intro x hx; cases x <;> first | rfl | exact ⟨rfl, rfl, rfl, rfl⟩ | exact absurd (by decide) hx

theorem updLine_changes (n : Fin 8) (f : Line → Line) (s : State) : changes [.lines] s (s.updLine n f) := by
  intro x hx; cases x <;> first | rfl | exact ⟨rfl, rfl, rfl, rfl⟩ | exact absurd (by decide) hx

theorem advanceFormation_changes (s : State) : changes [.formationGen, .ports] s (advanceFormation s) := by
  intro x hx; cases x <;> first | rfl | exact ⟨rfl, rfl, rfl, rfl⟩ | exact absurd (by decide) hx

theorem advanceRoute_changes (s : State) : changes [.routeGen, .ports] s (advanceRoute s) := by
  intro x hx; cases x <;> first | rfl | exact ⟨rfl, rfl, rfl, rfl⟩ | exact absurd (by decide) hx

theorem advanceSeat_changes (c : Fin 16) (s : State) : changes [.seatGens, .ports] s (advanceSeat c s) := by
  intro x hx; cases x <;> first | rfl | exact ⟨rfl, rfl, rfl, rfl⟩ | exact absurd (by decide) hx

theorem advanceSeats_changes (cs : List (Fin 16)) (s : State) : changes [.seatGens, .ports] s (advanceSeats cs s) := by
  exact changes.foldl _ (fun s c => advanceSeat_changes c s) cs s

theorem advanceNotice_changes (s : State) : changes [.noticeGen] s (advanceNotice s) := by
  intro x hx; cases x <;> first | rfl | exact ⟨rfl, rfl, rfl, rfl⟩ | exact absurd (by decide) hx

theorem record_changes (c : Condition) (s : State) : changes [.attention] s (record c s) := by
  unfold record
  split
  · exact changes_refl _ s
  · intro x hx; cases x <;> first | rfl | exact ⟨rfl, rfl, rfl, rfl⟩ | exact absurd (by decide) hx

theorem retract_changes (c : Condition) (s : State) : changes [.attention] s (retract c s) := by
  intro x hx; cases x <;> first | rfl | exact ⟨rfl, rfl, rfl, rfl⟩ | exact absurd (by decide) hx

theorem settlePool_changes (s : State) : changes [.attention] s (settlePool s) := by
  exact (record_changes .poolLow s).ite (retract_changes .poolLow s)

theorem changes.withNoticeNews {l : List Part} {f : State → State} (s : State) (h : changes l s (f s)) :
    changes (.noticeGen :: l) s (withNoticeNews f s) := by
  have k : changes (.noticeGen :: l) s (f s) := fun x hx => h x (fun hm => hx (List.mem_cons_of_mem _ hm))
  unfold Machine.withNoticeNews
  refine changes.ite (k.trans ((advanceNotice_changes (f s)).mono ?_)) k
  simp

theorem takeBlock_changes (s : State) : changes [.counts, .attention] s (takeBlock s) := by
  refine changes.trans ?_ ((settlePool_changes _).mono (by decide))
  intro x hx; cases x <;> first | rfl | exact ⟨rfl, rfl, rfl, rfl⟩ | exact absurd (by decide) hx

theorem returnBlock_changes (s : State) : changes [.counts, .attention] s (returnBlock s) := by
  refine changes.trans ?_ ((settlePool_changes _).mono (by decide))
  intro x hx; cases x <;> first | rfl | exact ⟨rfl, rfl, rfl, rfl⟩ | exact absurd (by decide) hx

theorem addRef_changes (id : Nat) (s : State) : changes [.texts] s (addRef id s) := by
  intro x hx; cases x <;> first | rfl | exact ⟨rfl, rfl, rfl, rfl⟩ | exact absurd (by decide) hx

theorem freeText_changes (t : TextSlot) (s : State) : changes [.counts, .texts, .attention] s (freeText t s) := by
  refine changes.trans ?_ ((settlePool_changes _).mono (by decide))
  intro x hx; cases x <;> first | rfl | exact ⟨rfl, rfl, rfl, rfl⟩ | exact absurd (by decide) hx

theorem releaseRef_changes (id : Nat) (s : State) : changes [.counts, .texts, .attention] s (releaseRef id s) := by
  unfold releaseRef
  split
  · exact changes_refl _ s
  · refine changes.ite (freeText_changes _ s) ?_
    intro x hx; cases x <;> first | rfl | exact ⟨rfl, rfl, rfl, rfl⟩ | exact absurd (by decide) hx

theorem releaseOpt_changes (id : Option Nat) (s : State) : changes [.counts, .texts, .attention] s (releaseOpt id s) := by
  cases id
  · exact changes_refl _ s
  · exact releaseRef_changes _ s

theorem moveRef_changes (old new : Option Nat) (s : State) : changes [.counts, .texts, .attention] s (moveRef old new s) := by
  unfold moveRef
  refine changes.ite (changes_refl _ s) (changes.trans ?_ (releaseOpt_changes old _))
  cases new
  · exact changes_refl _ s
  · exact (addRef_changes _ s).mono (by decide)

theorem startEdition_changes (e : Fin 24) (s : State) : changes [.entries, .lists] s (startEdition e s) := by
  unfold startEdition
  split
  · exact changes_refl _ s
  · intro x hx; cases x <;> first | rfl | exact ⟨rfl, rfl, rfl, rfl⟩ | exact absurd (by decide) hx

theorem freeEntry_changes (e : Fin 24) (pulls : Bool) (s : State) : changes [.entries, .lists, .counts, .texts, .attention] s (freeEntry e pulls s) := by
  unfold freeEntry
  split
  · exact changes_refl _ s
  · refine changes.trans ?_ ((releaseRef_changes _ _).mono (by decide))
    intro x hx; cases x <;> first | rfl | exact ⟨rfl, rfl, rfl, rfl⟩ | exact absurd (by decide) hx

theorem settleEntry_changes (e : Fin 24) (s : State) : changes [.entries, .attention] s (settleEntry e s) := by
  unfold settleEntry
  split
  · exact changes_refl _ s
  · split
    · exact changes.ite (((updEntry_changes e _ s).mono (by decide)).trans ((record_changes _ _).mono (by decide)))
        (changes_refl _ s)
    · exact changes.ite ((updEntry_changes e _ s).mono (by decide)) (changes_refl _ s)
    · exact changes_refl _ s

theorem settleEntries_changes (s : State) : changes [.entries, .attention] s (settleEntries s) := by
  exact changes.foldl _ (fun s e => settleEntry_changes e s) _ s

theorem mapEntries_changes (f : LiveNotice → LiveNotice) (s : State) : changes [.entries] s (mapEntries f s) := by
  intro x hx; cases x <;> first | rfl | exact ⟨rfl, rfl, rfl, rfl⟩ | exact absurd (by decide) hx

theorem joinEntries_changes (c : Fin 16) (now : LiveNotice → Bool) (s : State) : changes [.entries, .lists] s (joinEntries c now s) := by
  refine changes.foldl _ (fun s e => ?_) _ s
  split
  · exact changes_refl _ s
  · refine changes.ite ?_ (changes_refl _ s)
    dsimp only
    split
    · exact ((updLists_changes c _ s).mono (by decide)).trans ((updEntry_changes e _ _).mono (by decide))
    · exact (updLists_changes c _ s).mono (by decide)

theorem reachCoach_changes (c : Fin 16) (s : State) : changes [.entries, .lists] s (reachCoach c s) := by
  exact joinEntries_changes c _ s

theorem darkCoach_changes (c : Fin 16) (s : State) : changes [.entries, .lists] s (darkCoach c s) := by
  exact ((updLists_changes c _ s).mono (by decide)).trans ((mapEntries_changes _ _).mono (by decide))

theorem unreachCoach_changes (c : Fin 16) (s : State) : changes [.entries, .lists, .attention] s (unreachCoach c s) := by
  exact ((updLists_changes c _ s).mono (by decide)).trans
    (((mapEntries_changes _ _).mono (by decide)).trans ((settleEntries_changes _).mono (by decide)))

theorem restartCoach_changes (c : Fin 16) (s : State) : changes [.entries, .lists, .attention] s (restartCoach c s) := by
  exact ((updLists_changes c _ s).mono (by decide)).trans
    (((mapEntries_changes _ _).mono (by decide)).trans ((settleEntries_changes _).mono (by decide)))

theorem leaveByPortion_changes (c : Fin 16) (e : Fin 24) (old new : Portion) (s : State) : changes [.entries, .lists] s (leaveByPortion c e old new s) := by
  unfold leaveByPortion
  split
  · exact changes_refl _ s
  · exact changes.ite (((updLists_changes c _ s).mono (by decide)).trans ((updEntry_changes e _ _).mono (by decide)))
      (changes_refl _ s)

theorem movePortionNotices_changes (c : Fin 16) (old new : Portion) (s : State) : changes [.entries, .lists, .attention] s (movePortionNotices c old new s) := by
  exact ((changes.foldl _ (fun s e => leaveByPortion_changes c e old new s) all24 s).mono (by decide)).trans
    (((settleEntries_changes _).mono (by decide)).trans ((joinEntries_changes c _ _).mono (by decide)))

theorem freeEmptyTargets_changes (s : State) : changes [.entries, .lists, .counts, .texts, .attention] s (freeEmptyTargets s) := by
  exact changes.foldl _ (fun s e => (freeEntry_changes e false s).ite (changes_refl _ s)) _ s

theorem emptyLists_changes (gone : CoachSet) (s : State) : changes [.lists] s (emptyLists gone s) := by
  intro x hx; cases x <;> first | rfl | exact ⟨rfl, rfl, rfl, rfl⟩ | exact absurd (by decide) hx

theorem removeCoachNotices_changes (c : Fin 16) (s : State) : changes [.entries, .lists, .counts, .texts, .attention] s (removeCoachNotices c s) := by
  exact ((mapEntries_changes _ s).mono (by decide)).trans (((emptyLists_changes _ _).mono (by decide)).trans
    ((freeEmptyTargets_changes _).trans ((settleEntries_changes _).mono (by decide))))

theorem stopNotice_changes (p : Portion) (kind : NoticeKind) (stop : Nat) (s : State) : changes [.entries, .lists, .counts, .texts, .attention] s (stopNotice p kind stop s) := by
  unfold stopNotice
  split
  · exact changes_refl _ s
  · dsimp only
    refine changes.ite (freeEntry_changes _ _ s) (changes.ite (freeEntry_changes _ _ s) ?_)
    exact ((updEntry_changes _ _ s).mono (by decide)).trans (((moveRef_changes _ _ _).mono (by decide)).trans
      ((startEdition_changes _ _).mono (by decide)))

theorem takeReceipt_changes (c : Fin 16) (entry edition : Nat) (s : State) : changes [.entries, .lists, .attention] s (takeReceipt c entry edition s) := by
  unfold takeReceipt
  split
  · exact changes_refl _ s
  · rename_i e _
    have h := (updLists_changes c (fun l => { l with inFlight := removeFlight e edition l.inFlight }) s).mono
      (l' := [.entries, .lists, .attention]) (by decide)
    have k := fun f => h.trans ((updEntry_changes e f (s.updLists c _)).mono (by decide))
    dsimp only
    split
    · exact h
    · refine changes.ite h ?_
      split
      · exact changes.ite ((k _).trans ((settleEntry_changes e _).mono (by decide))) h
      · exact changes.ite (k _) h
      · exact changes.ite (k _) h

theorem retire_changes (r : Reservation) (s : State) : changes [.reservations, .counts, .texts, .attention] s (retire r s) := by
  refine changes.trans ?_ ((releaseOpt_changes r.label _).mono (by decide))
  refine changes.trans ?_ ((returnBlock_changes _).mono (by decide))
  intro x hx; cases x <;> first | rfl | exact ⟨rfl, rfl, rfl, rfl⟩ | exact absurd (by decide) hx

theorem retireAll_changes (rs : List Reservation) (s : State) : changes [.reservations, .counts, .texts, .attention] s (retireAll rs s) := by
  exact changes.foldl _ (fun s r => retire_changes r s) rs s

theorem retireWhere_changes (test : Reservation → Bool) (s : State) : changes [.reservations, .counts, .texts, .attention, .seatGens, .ports] s (retireWhere test s) := by
  exact ((retireAll_changes _ s).mono (by decide)).trans ((advanceSeats_changes _ _).mono (by decide))

theorem writeStatuses_changes (p : Portion) (stop : Nat) (s : State) : changes [.reservations] s (writeStatuses p stop s) := by
  intro x hx; cases x <;> first | rfl | exact ⟨rfl, rfl, rfl, rfl⟩ | exact absurd (by decide) hx

theorem sweep_changes (p : Portion) (stop : Nat) (s : State) : changes [.reservations, .counts, .texts, .attention, .seatGens, .ports] s (sweep p stop s) := by
  exact ((retireAll_changes _ s).mono (by decide)).trans (((writeStatuses_changes p stop _).mono (by decide)).trans
    ((advanceSeats_changes _ _).mono (by decide)))

theorem restatus_changes (c : Fin 16) (p : Portion) (s : State) : changes [.reservations, .seatGens, .ports] s (restatus c p s) := by
  unfold restatus
  dsimp only
  refine changes.ite (changes.trans ?_ ((advanceSeat_changes c _).mono (by decide))) ?_ <;>
    (intro x hx; cases x <;> first | rfl | exact ⟨rfl, rfl, rfl, rfl⟩ | exact absurd (by decide) hx)

theorem levelPending_changes (c : Fin 16) (s : State) : changes [.ports] s (levelPending c s) := by
  unfold levelPending
  split
  · exact changes_refl _ s
  · exact updPort_changes _ _ s

theorem changeLevel_changes (level : Level) (c : Fin 16) (s : State) : changes [.coaches, .ports, .entries, .lists] s (changeLevel level s c) := by
  unfold changeLevel
  split
  · exact changes_refl _ s
  · refine changes.ite (changes_refl _ s) ?_
    have h : changes [.coaches, .ports, .entries, .lists] s
        (levelPending c (s.updCoach c (fun k => { k with level := level }))) :=
      ((updCoach_changes c _ s).mono (by decide)).trans ((levelPending_changes c _).mono (by decide))
    refine changes.ite (h.trans ((darkCoach_changes c _).mono (by decide))) (changes.ite ?_ h)
    split
    · exact h
    · exact h.trans (((reachCoach_changes c _).mono (by decide)).trans ((updPort_changes _ _ _).mono (by decide)))

theorem settleLevels_changes (s t : State) : changes [.entries, .attention] t (settleLevels s t) := by
  exact (settleEntries_changes t).ite (changes_refl _ t)

theorem applyLevels_changes (level : Level) (cs : List (Fin 16)) (s : State) : changes [.coaches, .ports, .entries, .lists, .attention] s (applyLevels level cs s) := by
  exact ((changes.foldl _ (fun s c => changeLevel_changes level c s) cs s).mono (by decide)).trans
    ((settleLevels_changes s _).mono (by decide))

theorem reachStabled_changes (s : State) : changes [.time, .attention] s (reachStabled s) := by
  refine changes.trans ?_ ((record_changes _ _).mono (by decide))
  intro x hx; cases x <;> first | rfl | exact ⟨rfl, rfl, rfl, rfl⟩ | exact absurd (by decide) hx

theorem judgeStabling_changes (s : State) : changes [.time, .attention] s (judgeStabling s) := by
  exact (reachStabled_changes s).ite (changes_refl _ s)

theorem darkenForStabling_changes (c : Fin 16) (s : State) : changes [.coaches, .ports, .entries, .lists] s (darkenForStabling s c) := by
  unfold darkenForStabling
  split
  · exact changes_refl _ s
  · exact changes.ite (((updCoach_changes c _ s).mono (by decide)).trans ((levelPending_changes c _).mono (by decide)))
      (((updCoach_changes c _ s).mono (by decide)).trans (changeLevel_changes .dark c _))

theorem setMode_changes (mode : Mode) (s : State) : changes [.time] s (setMode mode s) := by
  intro x hx; cases x <;> first | rfl | exact ⟨rfl, rfl, rfl, rfl⟩ | exact absurd (by decide) hx

theorem setStablingDeadline_changes (deadline : Option Nat) (s : State) : changes [.time] s (setStablingDeadline deadline s) := by
  intro x hx; cases x <;> first | rfl | exact ⟨rfl, rfl, rfl, rfl⟩ | exact absurd (by decide) hx

theorem enterStabling_changes (s : State) : changes [.coaches, .ports, .entries, .lists, .attention, .time] s (enterStabling s) := by
  unfold enterStabling
  refine changes.ite ?_ (changes_refl _ s)
  exact ((setMode_changes _ s).mono (by decide)).trans
    (((changes.foldl _ (fun s c => darkenForStabling_changes c s) _ _).mono (by decide)).trans
      (((settleLevels_changes s _).mono (by decide)).trans
        (((setStablingDeadline_changes _ _).mono (by decide)).trans ((judgeStabling_changes _).mono (by decide)))))

theorem restoreLevel_changes (c : Fin 16) (s : State) : changes [.coaches, .ports, .entries, .lists] s (restoreLevel s c) := by
  unfold restoreLevel
  split
  · exact changes_refl _ s
  · exact (changeLevel_changes _ c s).trans ((updCoach_changes c _ _).mono (by decide))

theorem returnToService_changes (s : State) : changes [.coaches, .ports, .entries, .lists, .attention, .time] s (returnToService s) := by
  unfold returnToService
  refine changes.ite (changes_refl _ s) ?_
  exact ((setStablingDeadline_changes _ s).mono (by decide)).trans
    (((changes.foldl _ (fun s c => restoreLevel_changes c s) _ _).mono (by decide)).trans
      (((settleLevels_changes s _).mono (by decide)).trans ((setMode_changes _ _).mono (by decide))))

theorem welcomeCoach_changes (p c : Fin 16) (s : State) : changes [.ports, .entries, .lists] s (welcomeCoach p c s) := by
  unfold welcomeCoach
  exact changes.ite (((updPort_changes p _ s).mono (by decide)).trans ((reachCoach_changes c _).mono (by decide)))
    ((updPort_changes p _ s).mono (by decide))

theorem bindPort_changes (p c : Fin 16) (s : State) : changes [.coaches, .ports, .entries, .lists, .attention] s (bindPort p c s) := by
  exact ((updPort_changes p _ s).mono (by decide)).trans (((updCoach_changes c _ _).mono (by decide)).trans
    (((record_changes _ _).mono (by decide)).trans ((welcomeCoach_changes p c _).mono (by decide))))

theorem leaveBound_changes (p : Fin 16) (s : State) : changes [.coaches, .ports, .entries, .lists, .attention] s (leaveBound p s) := by
  unfold leaveBound
  split
  · exact changes_refl _ s
  · exact ((updPort_changes p _ s).mono (by decide)).trans (((unreachCoach_changes _ _).mono (by decide)).trans
      ((updCoach_changes _ _ _).mono (by decide)))

theorem takeBinding_changes (p : Fin 16) (out : Binding) (s : State) : changes [.coaches, .ports, .entries, .lists, .attention] s (takeBinding p out s) := by
  unfold takeBinding
  refine changes.trans ((leaveBound_changes p s).ite (c := (s.port p).state = .bound) (changes_refl _ s)) ?_
  cases out
  · exact (updPort_changes p _ _).mono (by decide)
  · exact ((updPort_changes p _ _).mono (by decide)).trans ((record_changes _ _).mono (by decide))
  · exact bindPort_changes p _ _

theorem reevaluate_changes (p : Fin 16) (s : State) : changes [.coaches, .ports, .entries, .lists, .attention] s (reevaluate p s) := by
  unfold reevaluate
  split <;> first | exact changes_refl _ s | skip
  exact changes.ite (changes_refl _ s) (takeBinding_changes p _ s)

theorem reevaluateOpt_changes (p : Option (Fin 16)) (s : State) : changes [.coaches, .ports, .entries, .lists, .attention] s (reevaluateOpt p s) := by
  cases p
  · exact changes_refl _ s
  · exact reevaluate_changes _ s

theorem detachEntry_changes (p : Portion) (gone : CoachSet) (e : Fin 24) (s : State) : changes [.entries, .lists, .counts, .texts, .attention] s (detachEntry p gone s e) := by
  unfold detachEntry
  split
  · exact changes_refl _ s
  · have h := fun f => (updEntry_changes e f s).mono (l' := [.entries, .lists, .counts, .texts, .attention]) (by decide)
    exact changes.ite ((h _).trans (freeEntry_changes e false _)) (changes.ite ((h _).trans (freeEntry_changes e true _))
      ((h _).trans ((settleEntry_changes e _).mono (by decide))))

theorem setStops_changes (stops : List Stop) (s : State) : changes [.stops] s (setStops stops s) := by
  intro x hx; cases x <;> first | rfl | exact ⟨rfl, rfl, rfl, rfl⟩ | exact absurd (by decide) hx

theorem releaseNames_changes (stops : List Stop) (s : State) : changes [.counts, .texts, .attention] s (releaseNames stops s) := by
  exact changes.foldl _ (fun s x => releaseRef_changes (Stop.name x) s) stops s

theorem detachStops_changes (p : Portion) (s : State) : changes [.stops, .counts, .texts, .attention] s (detachStops p s) := by
  exact ((setStops_changes _ s).mono (by decide)).trans ((releaseNames_changes _ _).mono (by decide))

theorem clearCoaches_changes (gone : CoachSet) (named : List (Fin 16)) (s : State) : changes [.coaches, .ports] s (clearCoaches gone named s) := by
  intro x hx; cases x <;> first | rfl | exact ⟨rfl, rfl, rfl, rfl⟩ | exact absurd (by decide) hx

theorem completeDetach_changes (p : Portion) (forced : Bool) (s : State) : changes [.coaches, .portions, .formationGen, .stops, .routeGen, .reservations, .seatGens, .counts, .texts, .entries, .lists, .ports, .attention, .time] s (completeDetach p forced s) := by
  unfold completeDetach
  dsimp only
  refine changes.trans ?_ ((judgeStabling_changes _).mono (by decide))
  refine changes.trans ?_ ((advanceRoute_changes _).mono (by decide))
  refine changes.trans ?_ ((advanceFormation_changes _).mono (by decide))
  refine changes.trans ?_ ((record_changes _ _).mono (by decide))
  refine changes.trans ?_ ((updPortion_changes p _ _).mono (by decide))
  refine changes.trans ?_ ((clearCoaches_changes _ _ _).mono (by decide))
  exact ((retireWhere_changes _ s).mono (by decide)).trans
    (((changes.foldl _ (fun s e => detachEntry_changes p _ e s) _ _).mono (by decide)).trans
      (((emptyLists_changes _ _).mono (by decide)).trans (((freeEntry_changes p.stopEntry false _).mono (by decide)).trans
        ((detachStops_changes p _).mono (by decide)))))

theorem settleDetach_changes (s : State) : changes [.coaches, .portions, .formationGen, .stops, .routeGen, .reservations, .seatGens, .counts, .texts, .entries, .lists, .ports, .attention, .time] s (settleDetach s) := by
  unfold settleDetach
  split
  · exact changes_refl _ s
  · exact changes.ite (changes_refl _ s) (completeDetach_changes _ false s)

theorem settlePorts_changes (s : State) : changes [.coaches, .portions, .formationGen, .stops, .routeGen, .reservations, .seatGens, .counts, .texts, .entries, .lists, .ports, .attention, .time] s (settlePorts s) := by
  exact (settleDetach_changes s).trans ((judgeStabling_changes _).mono (by decide))

theorem arriveAt_changes (p : Portion) (stop : Nat) (s : State) : changes [.portions, .routeGen, .reservations, .seatGens, .counts, .texts, .entries, .lists, .ports, .attention] s (arriveAt p stop s) := by
  exact ((updPortion_changes p _ s).mono (by decide)).trans (((sweep_changes p stop _).mono (by decide)).trans
    (((stopNotice_changes p .atStop stop _).mono (by decide)).trans (((record_changes _ _).mono (by decide)).trans
      (((updPortion_changes p _ _).mono (by decide)).trans ((advanceRoute_changes _).mono (by decide))))))

theorem approachStop_changes (p : Portion) (s : State) : changes [.portions, .routeGen, .counts, .texts, .entries, .lists, .ports, .attention] s (approachStop p s) := by
  unfold approachStop
  refine changes.trans ?_ ((advanceRoute_changes _).mono (by decide))
  refine changes.trans ((updPortion_changes p (fun r => { r with phase := some .approaching }) s).mono (by decide)) ?_
  split
  · exact changes_refl _ _
  · exact (stopNotice_changes _ _ _ _).mono (by decide)

theorem departFor_changes (p : Portion) (next : Nat) (s : State) : changes [.portions, .routeGen, .counts, .texts, .entries, .lists, .ports, .attention] s (departFor p next s) := by
  exact ((updPortion_changes p _ s).mono (by decide)).trans (((record_changes _ _).mono (by decide)).trans
    (((stopNotice_changes p .nextStop next _).mono (by decide)).trans ((advanceRoute_changes _).mono (by decide))))

theorem compareSide_changes (p : Portion) (side : Side) (s : State) : changes [.attention] s (compareSide p side s) := by
  exact (record_changes _ s).ite (changes_refl _ s)

theorem correctHeading_changes (p : Portion) (s : State) : changes [.portions, .entries, .lists, .counts, .texts, .attention] s (correctHeading s p) := by
  unfold correctHeading
  refine changes.ite ?_ (changes_refl _ s)
  split
  · exact changes_refl _ s
  · exact changes.ite (changes_refl _ s) (((updPortion_changes p _ s).mono (by decide)).trans
      ((stopNotice_changes _ _ _ _).mono (by decide)))

theorem correctHeadings_changes (s : State) : changes [.portions, .entries, .lists, .counts, .texts, .attention] s (correctHeadings s) := by
  exact changes.foldl _ (fun s p => correctHeading_changes p s) _ s

end Sys2Proof.Machine
end

