-- ==== Sys2Proof/Laws/Carry.lean ====
section
/-! SUPPORT. The parts of the state that an owner's carrying out of an order may change, that a lookup may change, and
that an event outside the record path may change. -/

namespace Sys2Proof.Machine

theorem changes.judged {l : List Part} {s : State} {checks : List (Bool × StatusCode)} {e : State × Reply}
    (h : changes l s e.1) : changes l s (judged checks s e).1 := by
  unfold Machine.judged
  split
  · exact changes_refl l s
  · exact h

theorem changes.answerCrew {l : List Part} {s t : State} (r : Reply) (h : changes l s t) :
    changes (.slots :: l) s (answerCrew r t) := by
  intro x hx
  have := h x (fun hm => hx (List.mem_cons_of_mem _ hm))
  cases x <;> first | exact this | exact absurd (List.mem_cons_self) hx

theorem grantCrew_changes (s : State) : changes [.arbiter, .slots] s (grantCrew s) := by
  intro x hx; cases x <;> first | rfl | exact ⟨rfl, rfl, rfl, rfl⟩ | exact absurd (by decide) hx

/-- No entry has changed, so R96 counts nothing. -/
theorem noticeNews_self {s t : State} (h : t.notice.entries = s.notice.entries) : noticeNews s t = false := by
  have k : ∀ e : Fin 24, t.entry e = s.entry e := fun e => by simp only [State.entry, h]
  have key : ∀ n : NoticeEntry, entryNews n n = false := by
    intro n
    cases hn : n.live <;> simp [entryNews, hn]
  simp [noticeNews, k, key]

theorem withNoticeNews_quiet {f : State → State} {s : State} (h : (f s).notice.entries = s.notice.entries) :
    withNoticeNews f s = f s := by
  simp [withNoticeNews, noticeNews_self h]

/-- The notice generation apart, a step around notices changes what its inside changes. -/
theorem changes.news {l : List Part} {f : State → State} (s : State) (h : changes l s (f s)) (k : .noticeGen ∈ l) :
    changes l s (Machine.withNoticeNews f s) :=
  (changes.withNoticeNews s h).mono (by simp [k])

theorem changePortion_changes (c : Fin 16) (old new : Portion) (s : State) : changes [.reservations, .seatGens, .ports, .entries, .lists, .attention] s (changePortion c old new s) := by
  unfold changePortion
  have h := ((restatus_changes c new s).mono (l' := [.reservations, .seatGens, .ports, .entries, .lists, .attention])
    (by decide)).trans ((movePortionNotices_changes c old new _).mono (by decide))
  dsimp only
  split
  · exact h
  · exact h.trans ((updPort_changes _ _ _).mono (by decide))

theorem defineCoach_changes (o : CoachOrder) (s : State) : changes levelParts s (defineCoach o s) := by
  exact ((setCoach_changes _ _ s).mono (by decide)).trans ((reevaluateOpt_changes _ _).mono (by decide))

theorem reevaluatePorts_changes (old new : Option (Fin 16)) (s : State) : changes levelParts s (reevaluatePorts old new s) := by
  exact (changes.ite (changes_refl _ s) ((reevaluateOpt_changes old s).mono (by decide))).trans
    ((reevaluateOpt_changes new _).mono (by decide))

theorem rewriteCoach_changes (o : CoachOrder) (k : Coach) (s : State) : changes (levelParts ++ [.reservations, .seatGens]) s (rewriteCoach o k s) := by
  unfold rewriteCoach
  dsimp only
  have h := (setCoach_changes o.coach (some (o.rewrite k)) s).mono (l' := levelParts ++ [.reservations, .seatGens])
    (by decide)
  have r := h.trans (changes.ite (c := o.relinks k = true) ((reevaluatePorts_changes k.port o.port _).mono (by decide))
    (changes_refl _ _))
  exact r.ite (r.trans ((changePortion_changes _ _ _ _).mono (by decide)))

theorem takeCoachOrder_changes (o : CoachOrder) (s : State) : changes (orderParts .setCoach) s (takeCoachOrder o s) := by
  unfold takeCoachOrder
  refine changes.trans (changes.trans ?_ ((advanceFormation_changes _).mono (by decide)))
    ((judgeStabling_changes _).mono (by decide))
  split
  · exact (defineCoach_changes o s).mono (by decide)
  · exact (rewriteCoach_changes o _ s).mono (by decide)

theorem carrySetCoach_changes (fs : List RawField) (s : State) : changes (orderParts .setCoach) s ((carrySetCoach fs s).1) := by
  unfold carrySetCoach
  split_ifs
  · exact changes_refl _ s
  · split
    · exact changes_refl _ s
    · exact changes.judged (takeCoachOrder_changes _ s)

theorem takeRemoveCoach_changes (c : Fin 16) (s : State) : changes (orderParts .removeCoach) s (takeRemoveCoach c s) := by
  exact ((removeCoachNotices_changes c s).mono (by decide)).trans (((setCoach_changes c none _).mono (by decide)).trans
    (((reevaluateOpt_changes _ _).mono (by decide)).trans (((advanceFormation_changes _).mono (by decide)).trans
      ((judgeStabling_changes _).mono (by decide)))))

theorem carryRemoveCoach_changes (fs : List RawField) (s : State) : changes (orderParts .removeCoach) s ((carryRemoveCoach fs s).1) := by
  unfold carryRemoveCoach
  split_ifs
  · exact changes_refl _ s
  · split
    · exact changes_refl _ s
    · exact changes.judged (takeRemoveCoach_changes _ s)

theorem carryAttach_changes (fs : List RawField) (s : State) : changes (orderParts .attach) s ((carryAttach fs s).1) := by
  unfold carryAttach
  split_ifs
  · exact changes_refl _ s
  · split
    · exact changes_refl _ s
    · exact changes.judged (((updPortion_changes _ _ s).mono (by decide)).trans
        ((advanceFormation_changes _).mono (by decide)))

theorem acceptDetach_changes (p : Portion) (s : State) : changes detachParts s (acceptDetach p s) := by
  unfold acceptDetach
  have h : changes detachParts s (advanceFormation ((s.coachesOf p).foldl (fun s c =>
      match s.boundPort c with
      | none => s
      | some q => s.updPort q (fun q => { q with release := true, releaseAwaited := true }))
      (s.updPortion p (fun r => { r with state := .detaching, deadline := some s.settings.detachDeadline })))) := by
    refine changes.trans ?_ ((advanceFormation_changes _).mono (by decide))
    refine changes.trans ((updPortion_changes p _ s).mono (by decide)) (changes.foldl _ (fun s c => ?_) _ _)
    split
    · exact changes_refl _ s
    · exact (updPort_changes _ _ s).mono (by decide)
  exact changes.ite h (h.trans ((completeDetach_changes p false _).mono (by decide)))

theorem carryDetach_changes (fs : List RawField) (s : State) : changes detachParts s ((carryDetach fs s).1) := by
  unfold carryDetach
  split_ifs
  · exact changes_refl _ s
  · split
    · exact changes_refl _ s
    · exact changes.judged (acceptDetach_changes _ s)

theorem carrySetLevel_changes (fs : List RawField) (s : State) : changes levelParts s ((carrySetLevel fs s).1) := by
  unfold carrySetLevel
  split_ifs
  · exact changes_refl _ s
  · split
    · exact changes.judged ((applyLevels_changes _ _ s).mono (by decide))
    · exact changes_refl _ s

theorem takeCoupler_changes (p : Portion) (active : Bool) (s : State) : changes detachParts s (takeCoupler p active s) := by
  unfold takeCoupler
  refine changes.ite (changes_refl _ s) ?_
  split
  · exact changes_refl _ s
  · exact (record_changes _ s).mono (by decide)
  · exact (completeDetach_changes p false s).mono (by decide)

theorem takePutStop_changes (fs : List RawField) (s : State) : changes (orderParts .putStop) s ((takePutStop fs s).1) := by
  unfold takePutStop
  dsimp only
  refine changes.trans (changes.trans ?_ ((advanceRoute_changes _).mono (by decide)))
    ((correctHeadings_changes _).mono (by decide))
  exact ((setStops_changes _ s).mono (by decide)).trans ((moveRef_changes _ _ _).mono (by decide))

theorem carryPutStop_changes (fs : List RawField) (s : State) : changes (orderParts .putStop) s ((carryPutStop fs s).1) := by
  unfold carryPutStop
  split_ifs
  · exact changes_refl _ s
  · exact changes_refl _ s
  · exact changes.judged (takePutStop_changes fs s)

theorem dropStop_changes (stop : Nat) (s : State) : changes [.stops] s (dropStop stop s) := by
  intro x hx; cases x <;> first | rfl | exact ⟨rfl, rfl, rfl, rfl⟩ | exact absurd (by decide) hx

theorem markCancelled_changes (stop : Nat) (flag : Bool) (s : State) : changes [.stops] s (markCancelled stop flag s) := by
  intro x hx; cases x <;> first | rfl | exact ⟨rfl, rfl, rfl, rfl⟩ | exact absurd (by decide) hx

theorem writeDelay_changes (stop delay : Nat) (s : State) : changes [.stops] s (writeDelay stop delay s) := by
  intro x hx; cases x <;> first | rfl | exact ⟨rfl, rfl, rfl, rfl⟩ | exact absurd (by decide) hx

theorem carryRemoveStop_changes (fs : List RawField) (s : State) : changes (orderParts .removeStop) s ((carryRemoveStop fs s).1) := by
  unfold carryRemoveStop
  split_ifs
  · exact changes_refl _ s
  · exact changes_refl _ s
  · split
    · exact changes_refl _ s
    · exact changes.judged (((dropStop_changes _ s).mono (by decide)).trans
        (((releaseRef_changes _ _).mono (by decide)).trans ((advanceRoute_changes _).mono (by decide))))

theorem carryCancelStop_changes (fs : List RawField) (s : State) : changes (orderParts .cancelStop) s ((carryCancelStop fs s).1) := by
  unfold carryCancelStop
  split_ifs
  · exact changes_refl _ s
  · exact changes_refl _ s
  · split
    · exact changes_refl _ s
    · split
      · exact changes_refl _ s
      · exact changes.judged (((markCancelled_changes _ _ s).mono (by decide)).trans
        (((advanceRoute_changes _).mono (by decide)).trans ((correctHeadings_changes _).mono (by decide))))

theorem carryReinstateStop_changes (fs : List RawField) (s : State) : changes (orderParts .reinstateStop) s ((carryReinstateStop fs s).1) := by
  unfold carryReinstateStop
  split_ifs
  · exact changes_refl _ s
  · exact changes_refl _ s
  · split
    · exact changes_refl _ s
    · split
      · exact (((markCancelled_changes _ _ s).mono (by decide)).trans
        (((advanceRoute_changes _).mono (by decide)).trans ((correctHeadings_changes _).mono (by decide))))
      · exact changes_refl _ s

theorem carrySetDelay_changes (fs : List RawField) (s : State) : changes (orderParts .setDelay) s ((carrySetDelay fs s).1) := by
  unfold carrySetDelay
  split_ifs
  · exact changes_refl _ s
  · exact changes_refl _ s
  · split
    · exact changes_refl _ s
    · exact ((writeDelay_changes _ _ s).mono (by decide)).trans ((advanceRoute_changes _).mono (by decide))

theorem progressOrder_changes {l : List Part} {params : List Param}
    {own : Portion → List RawField → State → State × Reply} (h : ∀ p fs s, changes l s (own p fs s).1)
    (fs : List RawField) (s : State) : changes l s (progressOrder params own fs s).1 := by
  unfold progressOrder
  split_ifs
  · exact changes_refl _ s
  · split
    · exact changes_refl _ s
    · exact changes.judged (h _ fs s)

theorem changes.applied {l : List Part} {s : State} {e : Option State} (h : ∀ t, e = some t → changes l s t) :
    changes l s (applied s e).1 := by
  unfold Machine.applied
  split
  · exact h _ rfl
  · exact changes_refl _ s

theorem tryArrive_changes (p : Portion) (s t : State) (h : tryArrive p s = some t) :
    changes (orderParts .arrive) s t := by
  unfold tryArrive at h
  split at h
  · obtain ⟨stop, _, rfl⟩ := Option.map_eq_some_iff.mp h
    exact (arriveAt_changes p stop s).mono (by decide)
  · cases h

theorem tryApproach_changes (p : Portion) (s t : State) (h : tryApproach p s = some t) :
    changes progressParts s t := by
  unfold tryApproach at h
  split at h
  · cases h
    exact (approachStop_changes p s).mono (by decide)
  · cases h

theorem tryDepart_changes (p : Portion) (s t : State) (h : tryDepart p s = some t) : changes progressParts s t := by
  obtain ⟨next, _, rfl⟩ := Option.map_eq_some_iff.mp h
  exact (departFor_changes p next s).mono (by decide)

theorem tryRelease_changes (p : Portion) (side : Side) (s t : State) (h : tryRelease p side s = some t) :
    changes (orderParts .releaseDoors) s t := by
  unfold tryRelease at h
  split at h
  · cases h
    exact ((updPortion_changes p _ s).mono (by decide)).trans (((advanceRoute_changes _).mono (by decide)).trans
      ((compareSide_changes p side _).mono (by decide)))
  · cases h
    exact (compareSide_changes p side s).mono (by decide)
  · cases h
    exact (compareSide_changes p side s).mono (by decide)
  · cases h

theorem carryStart_changes (fs : List RawField) (s : State) : changes (orderParts .start) s (carryStart fs s).1 :=
  progressOrder_changes (fun p _ s => changes.judged ((arriveAt_changes p _ s).mono (by decide))) fs s

theorem carryApproach_changes (fs : List RawField) (s : State) : changes progressParts s (carryApproach fs s).1 :=
  progressOrder_changes (fun p _ s => changes.applied (tryApproach_changes p s)) fs s

theorem carryArrive_changes (fs : List RawField) (s : State) : changes (orderParts .arrive) s (carryArrive fs s).1 :=
  progressOrder_changes (fun p _ s => changes.applied (tryArrive_changes p s)) fs s

theorem carryReleaseDoors_changes (fs : List RawField) (s : State) :
    changes (orderParts .releaseDoors) s (carryReleaseDoors fs s).1 := by
  refine progressOrder_changes (fun p fs s => ?_) fs s
  split
  · exact changes_refl _ s
  · exact changes.applied (tryRelease_changes p _ s)

theorem carryDepart_changes (fs : List RawField) (s : State) : changes progressParts s (carryDepart fs s).1 :=
  progressOrder_changes (fun p _ s => changes.applied (tryDepart_changes p s)) fs s

theorem offerEvent_changes {l : List Part} {event : Portion → State → Option State}
    (h : ∀ p s t, event p s = some t → changes l s t) (k : .noticeGen ∈ l) (s : State) :
    changes l s (offerEvent event s) := by
  unfold offerEvent
  refine changes.ite (changes_refl _ s) (changes.news s ?_ k)
  refine changes.foldl (fun s p => if (s.portion p).state = .attached then (event p s).getD s else s)
    (fun s p => ?_) _ s
  refine changes.ite ?_ (changes_refl _ s)
  cases e : event p s
  · exact changes_refl _ s
  · exact h p s _ e

theorem writeBooking_changes (b : Booking) (used : List Nat) (block : Nat) (s : State) : changes [.reservations, .handleCounter] s ((writeBooking b used block s).1) := by
  unfold writeBooking
  intro x hx; cases x <;> first | rfl | exact ⟨rfl, rfl, rfl, rfl⟩ | exact absurd (by decide) hx

theorem takeBooking_changes (b : Booking) (s : State) : changes (orderParts .book) s ((takeBooking b s).1) := by
  unfold takeBooking
  dsimp only
  refine changes.trans (changes.trans ((takeBlock_changes s).mono (by decide)) ?_)
    (((writeBooking_changes b _ _ _).mono (by decide)).trans ((advanceSeat_changes _ _).mono (by decide)))
  cases b.label
  · exact changes_refl _ _
  · exact (addRef_changes _ _).mono (by decide)

theorem carryBook_changes (fs : List RawField) (s : State) : changes (orderParts .book) s ((carryBook fs s).1) := by
  unfold carryBook
  split_ifs
  · exact changes_refl _ s
  · split
    · exact changes_refl _ s
    · exact changes.judged (takeBooking_changes _ s)

theorem carryConfirm_changes (fs : List RawField) (s : State) : changes (orderParts .confirm) s ((carryConfirm fs s).1) := by
  unfold carryConfirm
  split_ifs
  · exact changes_refl _ s
  · split
    · exact changes_refl _ s
    · split
      · exact changes_refl _ s
      · refine changes.trans ?_ ((advanceSeat_changes _ _).mono (by decide))
        intro x hx; cases x <;> first | rfl | exact ⟨rfl, rfl, rfl, rfl⟩ | exact absurd (by decide) hx

theorem carryCancel_changes (fs : List RawField) (s : State) : changes (orderParts .cancel) s ((carryCancel fs s).1) := by
  unfold carryCancel
  split_ifs
  · exact changes_refl _ s
  · split
    · exact changes_refl _ s
    · exact ((retire_changes _ s).mono (by decide)).trans ((advanceSeat_changes _ _).mono (by decide))

theorem carryCancelCode_changes (fs : List RawField) (s : State) : changes (orderParts .cancelCode) s ((carryCancelCode fs s).1) := by
  unfold carryCancelCode
  split_ifs
  · exact changes_refl _ s
  · exact (retireWhere_changes _ s).mono (by decide)

theorem takeMove_changes (r : Reservation) (c : Fin 16) (seat : Nat) (s : State) : changes (orderParts .move) s ((takeMove r c seat s).1) := by
  refine changes.trans ?_ ((advanceSeats_changes _ _).mono (by decide))
  intro x hx; cases x <;> first | rfl | exact ⟨rfl, rfl, rfl, rfl⟩ | exact absurd (by decide) hx

theorem carryMove_changes (fs : List RawField) (s : State) : changes (orderParts .move) s ((carryMove fs s).1) := by
  unfold carryMove
  split
  · exact changes_refl _ s
  · split
    · exact changes_refl _ s
    · split
      · exact changes_refl _ s
      · split
        · exact changes_refl _ s
        · exact changes.judged (takeMove_changes _ _ _ s)

theorem takeReplace_changes (old : Reservation) (b : Booking) (s : State) : changes (orderParts .replace) s ((takeReplace old b s).1) := by
  unfold takeReplace
  dsimp only
  refine changes.trans (changes.trans ?_ ((moveRef_changes _ _ _).mono (by decide)))
    (((writeBooking_changes b _ _ _).mono (by decide)).trans ((advanceSeats_changes _ _).mono (by decide)))
  intro x hx; cases x <;> first | rfl | exact ⟨rfl, rfl, rfl, rfl⟩ | exact absurd (by decide) hx

theorem carryReplace_changes (fs : List RawField) (s : State) : changes (orderParts .replace) s ((carryReplace fs s).1) := by
  unfold carryReplace
  split_ifs
  · exact changes_refl _ s
  · split
    · exact changes_refl _ s
    · split
      · exact changes_refl _ s
      · exact changes.judged (takeReplace_changes _ _ s)

theorem carryPutText_changes (fs : List RawField) (s : State) : changes (orderParts .putText) s ((carryPutText fs s).1) := by
  unfold carryPutText
  split_ifs
  · exact changes_refl _ s
  · refine changes.judged (changes.trans ?_ ((settlePool_changes _).mono (by decide)))
    intro x hx; cases x <;> first | rfl | exact ⟨rfl, rfl, rfl, rfl⟩ | exact absurd (by decide) hx

theorem changes_dropped {l : List Part} {s : State} {c : Prop} [Decidable c] {x y : State × Reply}
    (h : changes l s x.1) (k : changes l s y.1) : changes l s (if c then x else y).1 := by
  split <;> assumption

theorem carryDropText_changes (fs : List RawField) (s : State) : changes (orderParts .dropText) s ((carryDropText fs s).1) := by
  unfold carryDropText
  split_ifs
  · exact changes_refl _ s
  · exact changes_refl _ s
  · split
    · exact changes_refl _ s
    · refine changes_dropped ?_ ?_
      · exact (freeText_changes _ s).mono (by decide)
      · intro x hx; cases x <;> first | rfl | exact ⟨rfl, rfl, rfl, rfl⟩ | exact absurd (by decide) hx

theorem takeIssue_changes (e : Fin 24) (fs : List RawField) (s : State) : changes noticeParts s ((takeIssue e fs s).1) := by
  exact ((addRef_changes _ s).mono (by decide)).trans (((updEntry_changes e _ _).mono (by decide)).trans
    ((startEdition_changes e _).mono (by decide)))

theorem carryIssue_changes (fs : List RawField) (s : State) : changes noticeParts s ((carryIssue fs s).1) := by
  unfold carryIssue
  split_ifs
  · exact changes_refl _ s
  · exact changes_refl _ s
  · refine changes.judged ?_
    split
    · exact changes_refl _ s
    · exact takeIssue_changes _ fs s

theorem takeAmend_changes (e : Fin 24) (l : LiveNotice) (text : Nat) (priority : Option Nat) (s : State) : changes noticeParts s ((takeAmend e l text priority s).1) := by
  exact ((updEntry_changes e _ s).mono (by decide)).trans (((moveRef_changes _ _ _).mono (by decide)).trans
    ((startEdition_changes e _).mono (by decide)))

theorem carryAmend_changes (fs : List RawField) (s : State) : changes noticeParts s ((carryAmend fs s).1) := by
  unfold carryAmend
  split_ifs
  · exact changes_refl _ s
  · exact changes_refl _ s
  · split
    · exact changes_refl _ s
    · split
      · exact changes_refl _ s
      · split
        · exact changes_refl _ s
        · exact takeAmend_changes _ _ _ _ s

theorem carryWithdraw_changes (fs : List RawField) (s : State) : changes noticeParts s ((carryWithdraw fs s).1) := by
  unfold carryWithdraw
  split_ifs
  · exact changes_refl _ s
  · split
    · exact changes_refl _ s
    · split
      · exact changes_refl _ s
      · exact (freeEntry_changes _ true s).mono (by decide)

theorem recompute_changes (s : State) : changes [.lines] s (recompute s) := by
  intro x hx; cases x <;> first | rfl | exact ⟨rfl, rfl, rfl, rfl⟩ | exact absurd (by decide) hx

theorem setQuota_changes (p : Fin 16) (quota : Nat) (s : State) : changes [.settings, .ports] s (setQuota p quota s) := by
  intro x hx; cases x <;> first | rfl | exact ⟨rfl, rfl, rfl, rfl⟩ | exact absurd (by decide) hx

theorem setLine_changes (n : Nat) (f : Line → Line) (s : State) : changes [.lines] s (setLine n f s) := by
  unfold setLine
  split
  · exact changes_refl _ s
  · exact (updLine_changes _ f s).trans (recompute_changes _)

theorem setPattern_changes (mask : Nat) (s : State) : changes [.lines] s (setPattern mask s) := by
  refine changes.trans ?_ (recompute_changes _)
  intro x hx; cases x <;> first | rfl | exact ⟨rfl, rfl, rfl, rfl⟩ | exact absurd (by decide) hx

theorem writeSetting_changes (setting index value : Nat) (s : State) : changes (orderParts .set) s (writeSetting setting index value s) := by
  unfold writeSetting
  dsimp only
  split
  case h_2 =>
    refine changes.trans ?_ ((settlePool_changes _).mono (by decide))
    intro x hx; cases x <;> first | rfl | exact ⟨rfl, rfl, rfl, rfl⟩ | exact absurd (by decide) hx
  case h_5 =>
    cases portNo index
    · exact changes_refl _ s
    · exact (setQuota_changes _ value s).mono (by decide)
  case h_9 =>
    unfold setAutoStop
    split <;> (intro x hx; cases x <;> first | rfl | exact ⟨rfl, rfl, rfl, rfl⟩ | exact absurd (by decide) hx)
  case h_16 =>
    cases portNo index
    · exact changes_refl _ s
    · intro x hx; cases x <;> first | rfl | exact ⟨rfl, rfl, rfl, rfl⟩ | exact absurd (by decide) hx
  case h_18 => exact (setLine_changes _ _ s).mono (by decide)
  case h_19 => exact (setLine_changes _ _ s).mono (by decide)
  case h_20 =>
    cases lineNo value
    · exact changes_refl _ s
    · intro x hx; cases x <;> first | rfl | exact ⟨rfl, rfl, rfl, rfl⟩ | exact absurd (by decide) hx
  case h_21 => exact (setPattern_changes _ s).mono (by decide)
  all_goals (intro x hx; cases x <;> first | rfl | exact ⟨rfl, rfl, rfl, rfl⟩ | exact absurd (by decide) hx)

theorem carrySet_changes (fs : List RawField) (s : State) : changes (orderParts .set) s ((carrySet fs s).1) := by
  unfold carrySet
  split_ifs
  · exact changes_refl _ s
  · exact changes_refl _ s
  · exact writeSetting_changes _ _ _ s

theorem acknowledge_changes (items : List AckItem) (s : State) : changes [.attention] s (acknowledge items s) := by
  refine changes.trans ?_ (settlePool_changes _)
  intro x hx; cases x <;> first | rfl | exact ⟨rfl, rfl, rfl, rfl⟩ | exact absurd (by decide) hx

theorem carryAcknowledge_changes (fs : List RawField) (s : State) : changes [.attention] s ((carryAcknowledge fs s).1) := by
  unfold carryAcknowledge
  split_ifs
  · exact changes_refl _ s
  · exact changes_refl _ s
  · exact acknowledge_changes _ s

theorem carryEnterStabled_changes (fs : List RawField) (s : State) : changes (orderParts .enterStabled) s ((carryEnterStabled fs s).1) := by
  unfold carryEnterStabled
  split_ifs
  · exact (enterStabling_changes s).mono (by decide)
  · exact changes_refl _ s

theorem carryLeaveStabled_changes (fs : List RawField) (s : State) : changes (orderParts .leaveStabled) s ((carryLeaveStabled fs s).1) := by
  unfold carryLeaveStabled
  split_ifs
  · exact (returnToService_changes s).mono (by decide)
  · exact changes_refl _ s

theorem forceDetach_changes (s : State) : changes detachParts s (forceDetach s) := by
  unfold forceDetach
  split
  · exact changes_refl _ s
  · exact (completeDetach_changes _ true s).mono (by decide)

theorem advanceAllSeats_changes (before : Vector Nat 16) (s : State) : changes [.seatGens, .ports] s (advanceAllSeats before s) := by
  intro x hx; cases x <;> first | rfl | exact ⟨rfl, rfl, rfl, rfl⟩ | exact absurd (by decide) hx

theorem clearProgress_changes (s : State) : changes [.portions] s (clearProgress s) := by
  intro x hx; cases x <;> first | rfl | exact ⟨rfl, rfl, rfl, rfl⟩ | exact absurd (by decide) hx

theorem clearJourney_changes (s : State) : changes detachParts s (clearJourney s) := by
  exact (forceDetach_changes s).trans (((retireAll_changes _ _).mono (by decide)).trans
    (((advanceAllSeats_changes _ _).mono (by decide)).trans (((setStops_changes _ _).mono (by decide)).trans
      (((releaseNames_changes _ _).mono (by decide)).trans
        (((changes.foldl _ (fun s e => freeEntry_changes e true s) all24 _).mono (by decide)).trans
          (((clearProgress_changes _).mono (by decide)).trans (((advanceRoute_changes _).mono (by decide)).trans
            ((advanceFormation_changes _).mono (by decide)))))))))

theorem changes.ite_state {l : List Part} {s t u : State} {c : Prop} [Decidable c] (h : changes l s t)
    (k : changes l t u) : changes l s (if c then t else u) := h.ite (h.trans k)

theorem carryJourneyClear_changes (fs : List RawField) (s : State) : changes detachParts s ((carryJourneyClear fs s).1) := by
  unfold carryJourneyClear
  split_ifs
  · exact (clearJourney_changes s).ite_state ((advanceNotice_changes _).mono (by decide))
  · exact changes_refl _ s

end Sys2Proof.Machine
end

