-- ==== Sys2Proof/Laws/Events.lean ====
section
/-! SUPPORT. The parts of the state that a lookup, a frame, a send, a timer, a line event, a transfer or a start-up step
may change. -/

namespace Sys2Proof.Machine

theorem setContinuation_changes (a : Asker) (k : Option Continuation) (s : State) : changes [.crewContinuation, .ports] s (setContinuation a k s) := by
  cases a
  · intro x hx; cases x <;> first | rfl | exact ⟨rfl, rfl, rfl, rfl⟩ | exact absurd (by decide) hx
  · exact (updPort_changes _ _ s).mono (by decide)

theorem serveWalk_changes (a : Asker) (w : Walk) (mask key : Nat) (s : State) : changes [.crewContinuation, .ports] s ((serveWalk a w mask key s).1) := by
  unfold serveWalk
  dsimp only
  split <;> exact setContinuation_changes a _ s

theorem answerContinue_changes (a : Asker) (s : State) : changes [.crewContinuation, .ports] s ((answerContinue a s).1) := by
  unfold answerContinue
  split
  · exact changes_refl _ s
  · split
    · exact serveWalk_changes a _ _ _ s
    · exact setContinuation_changes a none s

theorem answerSeat_changes (a : Asker) (c : Fin 16) (seat mask : Nat) (s : State) : changes [.crewContinuation, .ports] s ((answerSeat a c seat mask s).1) := by
  unfold answerSeat
  split
  · exact changes_refl _ s
  · split
    · exact changes_refl _ s
    · exact serveWalk_changes a _ mask 0 s

theorem answerLocator_changes (a : Asker) (l : Locator) (fs : List RawField) (s : State) : changes [.crewContinuation, .ports] s ((answerLocator a l fs s).1) := by
  unfold answerLocator
  dsimp only
  split <;> (try split) <;> first
    | exact changes_refl _ s
    | exact serveWalk_changes a _ _ 0 s
    | exact answerContinue_changes a s
    | exact answerSeat_changes a _ _ _ s
    | exact (updPort_changes _ _ s).mono (by decide)

theorem engine_changes (a : Asker) (l : Option Locator) (fs : List RawField) (s : State) : changes [.crewContinuation, .ports] s ((engine a l fs s).1) := by
  unfold engine
  split
  · exact setContinuation_changes a none s
  · rename_i l
    have h := changes.ite (c := l = .resume) (changes_refl _ s) (setContinuation_changes a none s)
    dsimp only
    split
    · exact h
    · split
      · exact h
      · exact h.trans (answerLocator_changes a l fs _)

theorem answerQuery_changes (p : Fin 16) (q : Query) (s : State) : changes [.crewContinuation, .ports] s ((answerQuery p q s).1) := by
  unfold answerQuery
  split
  · exact changes_refl _ s
  · dsimp only
    split
    · exact changes_refl _ s
    · exact engine_changes _ _ _ s

theorem grantPort_changes (p : Fin 16) (s : State) : changes [.arbiter, .ports] s (grantPort p s) := by
  intro x hx; cases x <;> first | rfl | exact ⟨rfl, rfl, rfl, rfl⟩ | exact absurd (by decide) hx

theorem answerPort_changes (p : Fin 16) (tag : Nat) (r : Reply) (s : State) : changes [.ports] s (answerPort p tag r s) := by
  exact updPort_changes p _ s

theorem answerCrew_changes (r : Reply) (s : State) : changes [.slots] s (answerCrew r s) := by
  intro x hx; cases x <;> first | rfl | exact ⟨rfl, rfl, rfl, rfl⟩ | exact absurd (by decide) hx

theorem carryQuery_changes (p : Fin 16) (q : Query) (s : State) : changes [.arbiter, .slots, .crewContinuation, .ports] s (carryQuery p q s) := by
  exact ((grantPort_changes p s).mono (by decide)).trans (((answerQuery_changes p q _).mono (by decide)).trans
    ((answerPort_changes p _ _ _).mono (by decide)))

theorem carryRead_changes (o : Order) (s : State) : changes [.arbiter, .slots, .crewContinuation, .ports] s (carryRead o s) := by
  exact ((grantCrew_changes s).mono (by decide)).trans (((engine_changes _ _ _ _).mono (by decide)).trans
    ((answerCrew_changes _ _).mono (by decide)))

theorem lookupStep_changes (l : Option Locator) (s : State) : changes [.arbiter, .slots, .crewContinuation, .ports] s (lookupStep l s) := by
  unfold lookupStep
  split
  · exact (carryRead_changes _ s).ite (changes_refl _ s)
  · exact (carryQuery_changes _ _ s).ite (changes_refl _ s)
  · exact changes_refl _ s

/-- A granted order changes what its owner's rule changes, and the arbiter and the slots. -/
theorem orderStep_changes {l : List Part} {isKind : Nat → Bool} {carry : Carry}
    (h : ∀ fs s, changes l s (carry fs s).1) (k : .noticeGen ∈ l) (s : State) :
    changes (.arbiter :: .slots :: l) s (orderStep isKind carry s) := by
  unfold orderStep
  split
  · refine changes.ite ?_ (changes_refl _ s)
    unfold carryOrder
    have m : ∀ {s t : State}, changes l s t → changes (.arbiter :: .slots :: l) s t :=
      fun g => g.mono (by simp +contextual)
    exact ((grantCrew_changes s).mono (by simp)).trans ((m (changes.news _ (h _ _) k)).trans
      ((answerCrew_changes _ _).mono (by simp)))
  · exact changes_refl _ s

/-- The same for an order that leaves the notice entries. -/
theorem orderStep_changes_quiet {l : List Part} {isKind : Nat → Bool} {carry : Carry}
    (h : ∀ fs s, changes l s (carry fs s).1) (k : .entries ∉ l) (s : State) :
    changes (.arbiter :: .slots :: l) s (orderStep isKind carry s) := by
  unfold orderStep
  split
  · refine changes.ite ?_ (changes_refl _ s)
    unfold carryOrder
    dsimp only
    rw [withNoticeNews_quiet (f := fun s => (carry _ s).1) (h _ (grantCrew s) .entries k)]
    have m : ∀ {s t : State}, changes l s t → changes (.arbiter :: .slots :: l) s t :=
      fun g => g.mono (by simp +contextual)
    exact ((grantCrew_changes s).mono (by simp)).trans ((m (h _ _)).trans ((answerCrew_changes _ _).mono (by simp)))
  · exact changes_refl _ s

theorem qualify_changes (p : Fin 16) (s : State) : changes [.ports] s (qualify p s) := by
  exact (updPort_changes p _ s).ite (changes_refl _ s)

theorem changeCarrier_changes (p : Fin 16) (present : Bool) (s : State) : changes [.ports] s (changeCarrier p present s) := by
  exact (changes_refl _ s).ite (updPort_changes p _ s)

theorem loseCoach_changes (c : Fin 16) (s : State) : changes levelParts s (loseCoach c s) := by
  exact ((unreachCoach_changes c s).mono (by decide)).trans
    (((updCoach_changes c (fun k => { k with link := .lost }) _).mono (by decide)).trans
      ((record_changes (.coachLost c) _).mono (by decide)))

theorem loseLink_changes (p : Fin 16) (s : State) : changes detachParts s (loseLink p s) := by
  unfold loseLink
  dsimp only
  split
  · exact (updPort_changes p Port.lost s).mono (by decide)
  · rename_i c _
    exact ((updPort_changes p Port.lost s).mono (by decide)).trans (((loseCoach_changes c _).mono (by decide)).trans
      (changes.news _ ((settlePorts_changes _).mono (by decide)) (by decide)))

theorem takeLoss_changes (p : Fin 16) (s : State) : changes detachParts s (takeLoss p s) := by
  exact (loseLink_changes p s).ite (changes_refl _ s)

theorem countError_changes (p : Fin 16) (s : State) : changes [.ports] s (countError p s) := by
  exact updPort_changes p _ s

theorem restartCdc_changes (p c : Fin 16) (s : State) : changes [.ports, .entries, .lists, .attention] s (restartCdc p c s) := by
  exact ((updPort_changes p _ s).mono (by decide)).trans (((restartCoach_changes c _).mono (by decide)).trans
    ((welcomeCoach_changes p c _).mono (by decide)))

theorem takeGreet_changes (p : Fin 16) (label : List Byte) (maximum : Nat) (s : State) : changes levelParts s (takeGreet p label maximum s) := by
  unfold takeGreet
  refine changes.trans ((updPort_changes p
    (fun q => { q with greeted := some label, maximum := maximum, frameErrors := 0 }) s).mono (by decide)) ?_
  dsimp only
  split
  · exact changes.ite ((restartCdc_changes p _ _).mono (by decide)) ((takeBinding_changes p _ _).mono (by decide))
  · exact (takeBinding_changes p _ _).mono (by decide)

theorem takeQuery_changes (p : Fin 16) (tag : Nat) (fields : List RawField) (s : State) : changes [.ports] s (takeQuery p tag fields s) := by
  unfold takeQuery
  split
  · exact updPort_changes p _ s
  · exact updPort_changes p _ s

theorem takeNoticeReceipt_changes (p : Fin 16) (entry edition : Nat) (s : State) : changes [.entries, .lists, .attention, .ports] s (takeNoticeReceipt p entry edition s) := by
  unfold takeNoticeReceipt
  split
  · exact changes_refl _ s
  · exact (takeReceipt_changes _ _ _ s).mono (by decide)

theorem takeLevelReceipt_changes (p : Fin 16) (s : State) : changes [.ports, .time, .attention] s (takeLevelReceipt p s) := by
  exact changes.ite (((updPort_changes p _ s).mono (by decide)).trans ((judgeStabling_changes _).mono (by decide)))
    (changes_refl _ s)

theorem takeReleaseReceipt_changes (p : Fin 16) (s : State) : changes detachParts s (takeReleaseReceipt p s) := by
  exact changes.ite (((updPort_changes p _ s).mono (by decide)).trans
    (changes.news _ ((settleDetach_changes _).mono (by decide)) (by decide))) (changes_refl _ s)

theorem wakeCoach_changes (c : Fin 16) (s : State) : changes (.time :: levelParts) s (wakeCoach c s) := by
  unfold wakeCoach
  split
  · exact changes_refl _ s
  · refine changes.ite (changes_refl _ s) ?_
    split
    · exact (applyLevels_changes .full [c] s).mono (by decide)
    · exact changes_refl _ s
    · exact (returnToService_changes s).mono (by decide)
    · exact (levelPending_changes c s).mono (by decide)
    · exact (levelPending_changes c s).mono (by decide)

theorem takeWake_changes (p : Fin 16) (s : State) : changes (.time :: levelParts) s (takeWake p s) := by
  unfold takeWake
  split
  · exact changes_refl _ s
  · exact wakeCoach_changes _ s

/-- The parts that a frame that passes may change. -/
def frameParts : CoachFrame → List Part
  | .greet _ _ _ | .releaseReceipt => detachParts
  | .query _ => [.ports]
  | .noticeReceipt _ _ => [.entries, .lists, .attention, .ports]
  | .levelReceipt => [.ports, .time, .attention]
  | .wake => .time :: levelParts

theorem frameParts_ports (f : CoachFrame) : [Part.ports].all (· ∈ frameParts f) = true := by
  cases f <;> simp [frameParts, detachParts, levelParts]

theorem frameParts_all (f : CoachFrame) : (frameParts f).all (· ∈ detachParts) = true := by
  cases f <;> simp [frameParts, detachParts, levelParts]

theorem settledGreet_changes (p : Fin 16) (label : List Byte) (maximum : Nat) (s : State) :
    changes detachParts s (settlePorts (takeGreet p label maximum s)) :=
  ((takeGreet_changes p label maximum s).mono (by decide)).trans ((settlePorts_changes _).mono (by decide))

theorem takeFrame_changes (p : Fin 16) (f : CoachFrame) (s : State) : changes (frameParts f) s (takeFrame p f s) := by
  cases f with
  | greet label maximum revision =>
    exact changes.news (f := fun s => settlePorts (takeGreet p label maximum s)) s
      (settledGreet_changes p label maximum s) (by simp [frameParts, detachParts])
  | query fields => exact takeQuery_changes p _ fields s
  | noticeReceipt entry edition => exact takeNoticeReceipt_changes p entry edition s
  | levelReceipt => exact takeLevelReceipt_changes p s
  | releaseReceipt => exact takeReleaseReceipt_changes p s
  | wake => exact takeWake_changes p s

theorem takeReceived_changes (p : Fin 16) (r : Received) (s : State) : changes detachParts s (takeReceived p s r) := by
  unfold takeReceived
  refine changes.ite ?_ (changes_refl _ s)
  cases r with
  | nothing => exact changes_refl _ s
  | dropped => exact (countError_changes p s).mono (by decide)
  | passed f length => exact (takeFrame_changes p f s).mono (frameParts_all f)

theorem takeBytes_changes (p : Fin 16) (bytes : List Byte) (breaks : List Nat) (s : State) :
    changes detachParts s (takeBytes p bytes breaks s) :=
  changes.foldl _ (fun s r => takeReceived_changes p r s) _ s

/-- Where the carrier is broken behind every byte, the hunt finds dropped frames only. -/
theorem receive_cut (bytes : List Byte) :
    ∀ breaks skip, (∀ k, 1 ≤ k → k ≤ bytes.length → k ∈ breaks) → ∀ r ∈ receive breaks skip bytes, r = .dropped := by
  induction bytes with
  | nil => simp [receive]
  | cons b behind ih =>
    intro breaks skip cut
    have onward : ∀ k, 1 ≤ k → k ≤ behind.length → k ∈ breaks.map (· - 1) := fun k _ most =>
      List.mem_map.2 ⟨k + 1, cut (k + 1) (by omega) (by simp; omega), by omega⟩
    have here : judgeCoachFrame breaks behind = .dropped := by
      have one : 1 ∈ breaks := cut 1 (Nat.le_refl 1) (by simp)
      have : frameCut breaks behind = true := by
        refine List.any_eq_true.2 ⟨1, one, ?_⟩
        unfold linkFrameLength
        split <;> simp
      simp [judgeCoachFrame, this]
    unfold receive
    simp only [here]
    split
    · exact ih _ _ onward
    · split
      · exact ih _ _ onward
      · simpa using ih _ 0 onward

/-- While the carrier is absent, received bytes only raise the port's frame error count. -/
theorem takeBytes_absent_changes (p : Fin 16) (bytes : List Byte) (breaks : List Nat) (s : State)
    (absent : (s.port p).carrier = false) : changes [.ports] s (takeBytes p bytes breaks s) := by
  have only : ∀ r ∈ receive (breaksAt s p bytes breaks) 0 bytes, r = .dropped :=
    receive_cut bytes _ 0 (fun k _ _ => by simp [breaksAt, absent]; omega)
  unfold takeBytes
  generalize receive (breaksAt s p bytes breaks) 0 bytes = found at only
  clear absent
  induction found generalizing s with
  | nil => exact changes_refl _ s
  | cons r rest ih =>
    have first : changes [.ports] s (takeReceived p s r) := by
      rw [only r (by simp)]
      exact (countError_changes p s).ite (changes_refl _ s)
    exact first.trans (ih _ (fun r h => only r (by simp [h])))

/-- A frame that fits changes what its rule changes, or, while the carrier is absent, the port. -/
theorem onFrame_changes (p : Fin 16) (f : CoachFrame) (s : State) (fits : f.fits = true) :
    changes (frameParts f) s (onFrame p f s) := by
  unfold onFrame
  refine (changes_refl _ s).ite ?_
  cases h : (s.port p).carrier with
  | true => simpa [fits] using takeFrame_changes p f s
  | false => simpa [fits] using (takeBytes_absent_changes p f.bytes [] s h).mono (frameParts_ports f)

/-- Whatever frame arrives, its bytes may hold a frame of any kind. -/
theorem onFrame_changes_all (p : Fin 16) (f : CoachFrame) (s : State) : changes detachParts s (onFrame p f s) := by
  unfold onFrame
  exact (changes_refl _ s).ite (((takeFrame_changes p f s).mono (frameParts_all f)).ite (takeBytes_changes p f.bytes [] s))

/-- The length of a body. -/
theorem fieldsBytes_length (fs : List RawField) : (fieldsBytes fs).length = bodyLength fs := by
  induction fs with
  | nil => rfl
  | cons f fs ih =>
    simp only [fieldsBytes, bodyLength, List.flatMap_cons, List.length_append, List.map_cons, List.sum_cons] at ih ⊢
    rw [ih]
    unfold fieldBytes
    split <;> simp [u8, u16] <;> omega

/-- A frame that fits is one that its lengths can say. -/
theorem CoachFrame.fits_carried (f : CoachFrame) (fits : f.fits = true) : f.carried = true := by
  cases f with
  | query fs =>
    simp [CoachFrame.fits, queryShape, Config.maxLinkBody] at fits
    simp [CoachFrame.carried, CoachFrame.fields]
    exact ⟨fits.1.2, decide_eq_true (by have := of_decide_eq_true fits.2; omega)⟩
  | greet label maximum revision =>
    simp only [CoachFrame.fits, greetShape, Bool.and_eq_true, decide_eq_true_eq] at fits
    have a : maximum < 256 := by omega
    have b : revision < 256 := by omega
    simp [CoachFrame.carried, CoachFrame.fields, fieldFits, bodyLength, oneByte, u8, a, b, Config.itemField]
    omega
  | noticeReceipt entry edition =>
    simp only [CoachFrame.fits, receiptShape, Bool.and_eq_true, decide_eq_true_eq] at fits
    have a : entry < 256 := by omega
    have b : edition < 65536 := by omega
    simp [CoachFrame.carried, CoachFrame.fields, fieldFits, bodyLength, oneByte, twoBytes, u8, u16, a, b, Config.itemField]
  | levelReceipt => decide
  | releaseReceipt => decide
  | wake => decide

theorem handOut_changes (p : Fin 16) (m : LinkMessage) (s : State) : changes [.ports] s (handOut p m s) := by
  exact updPort_changes p _ s

theorem sendWelcome_changes (p : Fin 16) (s : State) : changes [.ports] s (sendWelcome p s) := by
  exact (updPort_changes p _ s).trans (handOut_changes p _ _)

theorem sendLevel_changes (p : Fin 16) (s : State) : changes [.ports] s (sendLevel p s) := by
  exact (updPort_changes p _ s).trans (handOut_changes p _ _)

theorem sendRelease_changes (p : Fin 16) (s : State) : changes [.ports] s (sendRelease p s) := by
  exact (updPort_changes p _ s).trans (handOut_changes p _ _)

theorem sendAnswer_changes (p : Fin 16) (s : State) : changes [.ports] s (sendAnswer p s) := by
  unfold sendAnswer
  split
  · exact changes_refl _ s
  · exact (updPort_changes p _ s).trans (handOut_changes p _ _)

theorem sendPull_changes (p : Fin 16) (s : State) : changes [.ports, .lists] s (sendPull p s) := by
  unfold sendPull
  split
  · exact changes_refl _ s
  · split
    · exact changes_refl _ s
    · exact ((updLists_changes _ _ s).mono (by decide)).trans ((handOut_changes p _ _).mono (by decide))

theorem sendPush_changes (p : Fin 16) (s : State) : changes [.ports, .lists, .entries] s (sendPush p s) := by
  unfold sendPush
  split
  · exact changes_refl _ s
  · split
    · exact changes_refl _ s
    · exact ((updLists_changes _ _ s).mono (by decide)).trans (((updEntry_changes _ _ _).mono (by decide)).trans
        ((handOut_changes p _ _).mono (by decide)))

theorem sendRefresh_changes (p : Fin 16) (s : State) : changes [.ports] s (sendRefresh p s) := by
  unfold sendRefresh
  split
  · exact changes_refl _ s
  · exact (updPort_changes p _ s).trans (handOut_changes p _ _)

theorem sendStep_changes {l : List Part} {send : Fin 16 → State → State} (h : ∀ p s, changes l s (send p s))
    (kind : LinkKind) (p : Fin 16) (s : State) : changes l s (sendStep kind send p s) :=
  (h p s).ite (changes_refl _ s)

theorem takeFiltered_changes (n : Fin 8) (level : LineLevel) (s : State) : changes [.lines, .attention] s (takeFiltered n level s) := by
  unfold takeFiltered
  dsimp only
  refine changes.trans (t := { recompute (s.updLine n (fun l => { l with filtered := level, wait := none })) with
      lines.handOvers := _ }) ?_ (changes.ite ((record_changes _ _).mono (by decide)) (changes_refl _ _))
  intro x hx; cases x <;> first | rfl | exact ⟨rfl, rfl, rfl, rfl⟩ | exact absurd (by decide) hx

theorem departInput_changes (n : Fin 8) (level : LineLevel) (s : State) : changes [.lines, .attention] s (departInput n level s) := by
  exact (takeFiltered_changes n level s).ite ((updLine_changes n _ s).mono (by decide))

theorem changeInput_changes (n : Fin 8) (level : LineLevel) (s : State) : changes [.lines, .attention] s (changeInput n level s) := by
  unfold changeInput
  have h := (updLine_changes n (fun l => { l with input := level }) s).mono (l' := [.lines, .attention]) (by decide)
  exact (changes_refl _ s).ite (h.ite (changes.ite (h.trans ((updLine_changes n _ _).mono (by decide)))
    (h.trans (departInput_changes n level _))))

theorem endWait_changes (n : Fin 8) (s : State) : changes [.lines, .attention] s (endWait n s) := by
  exact (takeFiltered_changes n _ s).ite (changes_refl _ s)

theorem sampleLines_changes (s : State) : changes [.lines] s (sampleLines s) := by
  refine changes.trans ?_ (recompute_changes _)
  intro x hx; cases x <;> first | rfl | exact ⟨rfl, rfl, rfl, rfl⟩ | exact absurd (by decide) hx

theorem takeHandOver_changes {l : List Part} {effect : State → State} (h : ∀ s, changes l s (effect s))
    (k : .lines ∈ l) (x : HandOver) (s : State) : changes l s (takeHandOver x effect s) := by
  unfold takeHandOver
  refine changes.ite (changes.trans ?_ (h _)) (changes_refl _ s)
  intro y hy
  cases y <;> first | rfl | exact ⟨rfl, rfl, rfl, rfl⟩ | exact absurd k hy

theorem excludeBlocks_changes (failed : List Nat) (s : State) : changes [.counts] s (excludeBlocks failed s) := by
  intro x hx; cases x <;> first | rfl | exact ⟨rfl, rfl, rfl, rfl⟩ | exact absurd (by decide) hx

theorem beginWaits_changes (s : State) : changes [.ports] s (beginWaits s) := by
  intro x hx; cases x <;> first | rfl | exact ⟨rfl, rfl, rfl, rfl⟩ | exact absurd (by decide) hx

theorem settleWarm_changes (s : State) : changes detachParts s (settleWarm s) := by
  unfold settleWarm
  refine changes.trans (changes.ite (c := s.time.mode = .stabled) ((record_changes _ s).mono (by decide)) (changes_refl _ s))
    (changes.news _ (forceDetach_changes _) (by decide))

theorem warmRestart_changes (s : State) : changes (touches .resetNReleased) s (warmRestart s) := by
  intro x hx; cases x <;> first | rfl | exact ⟨rfl, rfl, rfl, rfl⟩ | exact absurd (by decide) hx

theorem releaseReset_changes (s : State) : changes (touches .resetNReleased) s (releaseReset s) := by
  unfold releaseReset
  refine (changes_refl _ s).ite (changes.ite ?_ (warmRestart_changes s))
  intro x hx; cases x <;> first | rfl | exact ⟨rfl, rfl, rfl, rfl⟩ | exact absurd (by decide) hx

theorem powerUp_changes (strap : StartKind) (s : State) : changes ((detachParts ++ [.handleCounter, .arbiter, .slots, .lastFetched, .crewContinuation, .out, .lines, .settings])) s (powerUp strap s) := by
  intro x hx; cases x <;> first | rfl | exact ⟨rfl, rfl, rfl, rfl⟩ | exact absurd (by decide) hx

theorem holdReset_changes (s : State) : changes (touches .resetNAsserted) s (holdReset s) := by
  intro x hx; cases x <;> first | rfl | exact ⟨rfl, rfl, rfl, rfl⟩ | exact absurd (by decide) hx

theorem endStartUp_changes (failed : List Nat) (s : State) : changes ((.lines :: detachParts)) s (endStartUp failed s) := by
  unfold endStartUp
  split
  · exact changes_refl _ s
  · split
    · exact changes_refl _ s
    · rename_i kind _ _
      have a := (excludeBlocks_changes (failedBlocks failed) s).mono (l' := (.lines :: detachParts)) (by decide)
      have b := fun (t : State) => (record_changes .started { t with time.startUp := none }).mono
        (l' := (.lines :: detachParts)) (by decide)
      have c : ∀ t : State, changes ((.lines :: detachParts)) t { t with time.startUp := none } := by
        intro t x hx; cases x <;> first | rfl | exact ⟨rfl, rfl, rfl, rfl⟩ | exact absurd (by decide) hx
      have d := fun t => (settleWarm_changes t).mono (l' := (.lines :: detachParts)) (by decide)
      have e := fun t => (settlePool_changes t).mono (l' := (.lines :: detachParts)) (by decide)
      have f := fun t => (sampleLines_changes t).mono (l' := (.lines :: detachParts)) (by decide)
      have g := fun t => (beginWaits_changes t).mono (l' := (.lines :: detachParts)) (by decide)
      dsimp only
      refine changes.trans ?_ ((e _).trans ((f _).trans (g _)))
      have h := changes.ite (c := (kind == .powerOn && s.time.startKind == .checked) = true) a (changes_refl _ s)
      exact changes.ite ((h.trans ((c _).trans (b _))).trans (d _)) (h.trans ((c _).trans (b _)))

theorem expireHolds_changes (c : Fin 16) (s : State) : changes retireParts s (expireHolds c s) := by
  exact changes.ite (((retireWhere_changes _ s).mono (by decide)).trans ((record_changes _ _).mono (by decide)))
    (changes_refl _ s)

theorem expireLifetime_changes (e : Fin 24) (s : State) : changes noticeParts s (expireLifetime e s) := by
  exact changes.ite (changes.news _ ((freeEntry_changes e true s).mono (by decide)) (by decide)) (changes_refl _ s)

theorem expireReceipt_changes (e : Fin 24) (s : State) : changes [.entries, .attention] s (expireReceipt e s) := by
  exact changes.ite (((updEntry_changes e _ s).mono (by decide)).trans ((record_changes _ _).mono (by decide)))
    (changes_refl _ s)

theorem timeOutPush_changes (c : Fin 16) (s : State) : changes [.lists] s (timeOutPush c s) := by
  exact updLists_changes c _ s

theorem expireDetach_changes (s : State) : changes detachParts s (expireDetach s) := by
  unfold expireDetach
  split
  · exact changes_refl _ s
  · exact changes.ite (changes.news _ ((completeDetach_changes _ true s).mono (by decide)) (by decide)) (changes_refl _ s)

theorem expireStabling_changes (s : State) : changes [.time, .attention] s (expireStabling s) := by
  exact (reachStabled_changes s).ite (changes_refl _ s)

theorem ageHolds_changes (s : State) : changes [.reservations] s (ageHolds s) := by
  intro x hx; cases x <;> first | rfl | exact ⟨rfl, rfl, rfl, rfl⟩ | exact absurd (by decide) hx

theorem ageNotices_changes (s : State) : changes [.entries, .lists] s (ageNotices s) := by
  intro x hx; cases x <;> first | rfl | exact ⟨rfl, rfl, rfl, rfl⟩ | exact absurd (by decide) hx

theorem ageDetach_changes (s : State) : changes [.portions] s (ageDetach s) := by
  intro x hx; cases x <;> first | rfl | exact ⟨rfl, rfl, rfl, rfl⟩ | exact absurd (by decide) hx

theorem ageStabling_changes (s : State) : changes [.time] s (ageStabling s) := by
  intro x hx; cases x <;> first | rfl | exact ⟨rfl, rfl, rfl, rfl⟩ | exact absurd (by decide) hx

theorem countTick_changes (s : State) : changes [.time] s (countTick s) := by
  intro x hx; cases x <;> first | rfl | exact ⟨rfl, rfl, rfl, rfl⟩ | exact absurd (by decide) hx

theorem tickStore_changes (s : State) : changes retireParts s (tickStore s) := by
  exact ((changes.foldl _ (fun s c => expireHolds_changes c s) all16 s).mono (by decide)).trans
    ((ageHolds_changes _).mono (by decide))

theorem tickNotices_changes (s : State) : changes noticeParts s (tickNotices s) := by
  exact ((changes.foldl _ (fun s e => expireLifetime_changes e s) all24 s).mono (by decide)).trans
    (((changes.foldl _ (fun s e => expireReceipt_changes e s) all24 _).mono (by decide)).trans
      ((ageNotices_changes _).mono (by decide)))

theorem tickFormation_changes (s : State) : changes detachParts s (tickFormation s) := by
  exact (expireDetach_changes s).trans ((ageDetach_changes _).mono (by decide))

theorem tickStabling_changes (s : State) : changes [.time, .attention] s (tickStabling s) := by
  exact (expireStabling_changes s).trans ((ageStabling_changes _).mono (by decide))

theorem takeTick_changes (s : State) : changes detachParts s (takeTick s) := by
  exact changes.ite (((countTick_changes s).mono (by decide)).trans (((tickStore_changes _).mono (by decide)).trans
    (((tickNotices_changes _).mono (by decide)).trans (((tickFormation_changes _).mono (by decide)).trans
      ((tickStabling_changes _).mono (by decide)))))) (changes_refl _ s)

theorem drive_changes (bytes : List Byte) (s : State) : changes [.out] s (drive bytes s) := by
  intro x hx; cases x <;> first | rfl | exact ⟨rfl, rfl, rfl, rfl⟩ | exact absurd (by decide) hx

theorem intake_changes (frame : List Byte) (s : State) : changes [.slots] s (intake frame s) := by
  unfold intake
  split
  · intro x hx; cases x <;> first | rfl | exact ⟨rfl, rfl, rfl, rfl⟩ | exact absurd (by decide) hx
  · exact changes_refl _ s

theorem takeTransfer_changes (bytes : List Byte) (s : State) : changes [.slots, .out] s (takeTransfer bytes s) := by
  unfold takeTransfer
  have h := fun (b : List Byte) (t : State) => (drive_changes b t).mono (l' := [.slots, .out]) (by decide)
  refine (h _ s).ite ?_
  split
  · exact h _ s
  · exact (h _ s).ite (((intake_changes _ s).mono (by decide)).trans (h _ _))

theorem takeFetch_changes (clocked : Nat) (s : State) : changes [.slots, .lastFetched, .out] s (takeFetch clocked s) := by
  unfold takeFetch
  have h := fun (b : List Byte) (t : State) => (drive_changes b t).mono (l' := [.slots, .lastFetched, .out]) (by decide)
  refine (h _ s).ite ?_
  dsimp only
  split
  · exact h _ s
  · refine changes.ite ((h (clockOut (returned (fetchHead s)) clocked) s).trans ?_) (h _ s)
    intro x hx; cases x <;> first | rfl | exact ⟨rfl, rfl, rfl, rfl⟩ | exact absurd (by decide) hx

theorem takeRefetch_changes (clocked : Nat) (s : State) : changes [.out] s (takeRefetch clocked s) := by
  exact (drive_changes _ s).ite (drive_changes _ s)

theorem takeUnknown_changes (first : Byte) (clocked : Nat) (s : State) : changes [.out] s (takeUnknown first clocked s) := by
  exact (changes_refl _ s).ite ((drive_changes _ s).ite (drive_changes _ s))

end Sys2Proof.Machine
end

