-- ==== Sys2Proof/Laws/Orders.lean ====
section
/-! SUPPORT. What a granted order, a lookup and a send come to, said once: from what an owner answers to the step of the
whole part. Then what a few operations that many orders share do to what is read. -/

namespace Sys2Proof.Machine

/-! ## Granted orders -/

/-- What the owner of a command's order does with its parameters. -/
def carryOf : Instr → Carry
  | .setCoach => carrySetCoach
  | .removeCoach => carryRemoveCoach
  | .attach => carryAttach
  | .detach => carryDetach
  | .setLevel => carrySetLevel
  | .putStop => carryPutStop
  | .removeStop => carryRemoveStop
  | .cancelStop => carryCancelStop
  | .reinstateStop => carryReinstateStop
  | .setDelay => carrySetDelay
  | .start => carryStart
  | .approach => carryApproach
  | .arrive => carryArrive
  | .releaseDoors => carryReleaseDoors
  | .depart => carryDepart
  | .book => carryBook
  | .confirm => carryConfirm
  | .cancel => carryCancel
  | .cancelCode => carryCancelCode
  | .move => carryMove
  | .replace => carryReplace
  | .putText => carryPutText
  | .dropText => carryDropText
  | .issue => carryIssue
  | .amend => carryAmend
  | .withdraw => carryWithdraw
  | .set => carrySet
  | .acknowledge => carryAcknowledge
  | .enterStabled => carryEnterStabled
  | .leaveStabled => carryLeaveStabled
  | .journeyClear => carryJourneyClear
  | _ => carryUnknown

theorem orderStep_granted {s : State} {o : Order} {carry : Carry} {k : Nat} (g : nextGrant s = some (.crew o))
    (hk : o.kind = k) : orderStep (· == k) carry s = carryOrder carry o s := by
  unfold orderStep
  rw [g]
  simp [hk]

/-- The step of an order that is granted. -/
theorem exec_order (i : Instr) (s : State) (o : Order) (g : nextGrant s = some (.crew o))
    (hk : orderKind i = some o.kind) : exec i s = .next (carryOrder (carryOf i) o s) := by
  cases i <;> simp only [orderKind, Option.some.injEq, reduceCtorEq] at hk <;>
    exact congrArg _ (orderStep_granted g hk.symm)

/-- What an order's owner may change. -/
theorem carryOf_changes (i : Instr) (h : (orderKind i).isSome) (fs : List RawField) (s : State) :
    changes (orderParts i) s (carryOf i fs s).1 := by
  cases i <;> simp only [orderKind, Option.isSome_none, Bool.false_eq_true] at h
  · exact carrySetCoach_changes fs s
  · exact carryRemoveCoach_changes fs s
  · exact carryAttach_changes fs s
  · exact carryDetach_changes fs s
  · exact carrySetLevel_changes fs s
  · exact carryPutStop_changes fs s
  · exact carryRemoveStop_changes fs s
  · exact carryCancelStop_changes fs s
  · exact carryReinstateStop_changes fs s
  · exact carrySetDelay_changes fs s
  · exact carryStart_changes fs s
  · exact carryApproach_changes fs s
  · exact carryArrive_changes fs s
  · exact carryReleaseDoors_changes fs s
  · exact carryDepart_changes fs s
  · exact carryBook_changes fs s
  · exact carryConfirm_changes fs s
  · exact carryCancel_changes fs s
  · exact carryCancelCode_changes fs s
  · exact carryMove_changes fs s
  · exact carryReplace_changes fs s
  · exact carryPutText_changes fs s
  · exact carryDropText_changes fs s
  · exact carryIssue_changes fs s
  · exact carryAmend_changes fs s
  · exact carryWithdraw_changes fs s
  · exact carrySet_changes fs s
  · exact carryAcknowledge_changes fs s
  · exact carryEnterStabled_changes fs s
  · exact carryLeaveStabled_changes fs s
  · exact carryJourneyClear_changes fs s

/-- The parts of an order never name the grant or the answer, and name the notice generation if they name an entry. -/
theorem orderParts_apart (i : Instr) (h : (orderKind i).isSome) :
    (.noticeGen ∈ orderParts i ∨ .entries ∉ orderParts i) ∧ .arbiter ∉ orderParts i ∧ .slots ∉ orderParts i := by
  cases i <;> first | (simp only [orderKind, Option.isSome_none, Bool.false_eq_true] at h; done) | decide

/-- A granted order is answered with what its owner answers, within the parts that its owner changes. -/
theorem carryOrder_answers {s : State} {o : Order} {carry : Carry} {r : Reply} {t : State} {parts : List Part}
    (h : carry o.fields (grantCrew s) = (t, r)) (hc : changes parts (grantCrew s) t)
    (hk : .noticeGen ∈ parts ∨ .entries ∉ parts) (ha : .arbiter ∉ parts) (hs : .slots ∉ parts) :
    answersOrder s (carryOrder carry o s) r parts := by
  have key : ∀ u, withNoticeNews (fun s => (carry o.fields s).1) (grantCrew s) = u →
      changes parts (grantCrew s) u := by
    rintro u rfl
    rcases hk with hk | hk
    · exact changes.news _ (by rw [h]; exact hc) hk
    · rw [withNoticeNews_quiet]
      · rw [h]; exact hc
      · rw [h]; exact hc .entries hk
  have k := key _ rfl
  unfold carryOrder
  dsimp only
  refine ⟨?_, ?_, ?_⟩
  · exact (answerCrew_changes _ _ .arbiter (by decide)).trans (k .arbiter ha)
  · show moveSlot .executing (.answerReady (carry o.fields (grantCrew s)).2) _ = _
    rw [h, show (withNoticeNews (fun s => (carry o.fields s).1) (grantCrew s)).crew.slots = (grantCrew s).crew.slots from
      k .slots hs]
    rfl
  · exact ((grantCrew_changes s).mono (by simp)).trans
      (.trans (k.mono (by simp +contextual)) ((answerCrew_changes _ _).mono (by simp)))

/-- Everything but the slots, the arbiter and the notice generation is as an order's owner left it. -/
structure AsLeft (left t : State) : Prop where
  formation : t.formation = left.formation
  route : t.route = left.route
  store : t.store = left.store
  memory : t.memory = left.memory
  entries : t.notice.entries = left.notice.entries
  lists : t.notice.lists = left.notice.lists
  ports : t.ports = left.ports
  lines : t.lines = left.lines
  time : t.time = left.time
  settings : t.settings = left.settings
  attention : t.crew.attention = left.crew.attention
  continuation : t.crew.continuation = left.crew.continuation

theorem carryOrder_asLeft (carry : Carry) (o : Order) (s left : State) (r : Reply)
    (h : carry o.fields (grantCrew s) = (left, r)) :
    AsLeft left (carryOrder carry o s) ∧ (carryOrder carry o s).notice.gen =
      (if noticeNews (grantCrew s) left then nextCount left.notice.gen else left.notice.gen) := by
  unfold carryOrder withNoticeNews
  simp only [h]
  split <;> exact ⟨⟨rfl, rfl, rfl, rfl, rfl, rfl, rfl, rfl, rfl, rfl, rfl, rfl⟩, rfl⟩

/-- An order that its owner takes is taken, and what the owner left is what is read after it. -/
theorem taken_of {i : Instr} {s : State} {o : Order} {left : State} {res : List RawField} (ho : ordered i s o)
    (h : carryOf i o.fields (grantCrew s) = (left, okWith res)) :
    ∃ t, taken i s t res ∧ AsLeft left t ∧
      t.notice.gen = (if noticeNews (grantCrew s) left then nextCount left.notice.gen else left.notice.gen) := by
  obtain ⟨g, hk, _⟩ := ho
  have hs : (orderKind i).isSome := by simp [hk]
  obtain ⟨h1, h2, h3⟩ := orderParts_apart i hs
  have hc := carryOf_changes i hs o.fields (grantCrew s)
  rw [h] at hc
  exact ⟨_, ⟨exec_order i s o g hk, carryOrder_answers h hc h1 h2 h3⟩, carryOrder_asLeft _ _ _ _ _ h⟩

/-- The same where the owner is known to change less than an order of its kind may. -/
theorem answered_of {i : Instr} {s : State} {o : Order} {left : State} {r : Reply} {parts : List Part}
    (ho : ordered i s o) (h : carryOf i o.fields (grantCrew s) = (left, r)) (hc : changes parts (grantCrew s) left)
    (hk : .noticeGen ∈ parts ∨ .entries ∉ parts) (ha : .arbiter ∉ parts) (hs : .slots ∉ parts) :
    ∃ t, exec i s = .next t ∧ answersOrder s t r parts ∧ AsLeft left t := by
  obtain ⟨g, hk', _⟩ := ho
  exact ⟨_, exec_order i s o g hk', carryOrder_answers h hc hk ha hs, (carryOrder_asLeft _ _ _ _ _ h).1⟩

/-- An order whose owner changes nothing is answered and no more. -/
theorem answeredOnly_of {i : Instr} {s : State} {o : Order} {r : Reply} (ho : ordered i s o)
    (h : carryOf i o.fields (grantCrew s) = (grantCrew s, r)) : ∃ t, answeredOnly i s t r := by
  obtain ⟨g, hk, _⟩ := ho
  exact ⟨_, exec_order i s o g hk, carryOrder_answers h (changes_refl _ _) (by simp) (by simp) (by simp)⟩

theorem judged_passes (checks : List (Bool × StatusCode)) (s : State) (e : State × Reply) (h : refusal checks = none) :
    judged checks s e = e := by
  unfold judged
  rw [h]

theorem judged_refused {checks : List (Bool × StatusCode)} {code : StatusCode} (s : State) (e : State × Reply)
    (h : refusal checks = some code) : judged checks s e = (s, refuse code) := by
  unfold judged
  rw [h]

/-! ## Granted lookups -/

/-- What is granted to an asker: the state in which the lookup engine serves it. -/
def grantedTo (a : Asker) (s : State) : State :=
  match a with
  | .crew => grantCrew s
  | .coach p _ => grantPort p s

theorem lookup_crew {s : State} {tag : Nat} {fs : List RawField} (h : asks s .crew tag fs) {c : Option Locator}
    (hl : locatorOf 1 fs = c) {r : Reply} {k : Option Continuation}
    (he : engine .crew c fs (grantCrew s) = (setContinuation .crew k (grantCrew s), r)) :
    ∃ t, lookupStep c s = t ∧ answered s t .crew tag r k := by
  obtain ⟨o, ⟨g, hkind⟩, _, rfl⟩ := h
  refine ⟨answerCrew r (setContinuation .crew k (grantCrew s)), ?_, ⟨?_, ?_, ?_⟩, rfl⟩
  · unfold lookupStep
    rw [g]
    simp only [hkind, hl, true_and, if_true, carryRead, he]
  · rfl
  · rfl
  · intro x hx
    cases x <;> first | rfl | exact ⟨rfl, rfl, rfl, rfl⟩ | (exact absurd (by decide) hx)

/-- The step of a lookup is its locator's. -/
theorem exec_lookup (l : Locator) (s : State) : exec (lookupCommand l) s = .next (lookupStep (some l) s) := by
  cases l <;> rfl

/-- A query that is granted to a coach that is served: the step is the engine's, and the answer joins the outbox. -/
theorem lookup_coach {s : State} {p c : Fin 16} {tag : Nat} {fs : List RawField} (h : asks s (.coach p c) tag fs)
    {l : Option Locator} (hl : locatorOf 2 fs = l) :
    lookupStep l s = answerPort p tag (engine (.coach p c) l fs (grantPort p s)).2
      (engine (.coach p c) l fs (grantPort p s)).1 := by
  obtain ⟨g, hb, hd⟩ := h
  have hb' : ((grantPort p s).port p).bound = some c := by
    simp only [grantPort, State.updPort, State.port, get_update, if_true]
    exact hb
  have hdark : isDark (grantPort p s) c = isDark s c := rfl
  have hserved : darkServed (grantPort p s) p l = darkServed s p l := by
    unfold darkServed
    simp only [grantPort, State.updPort, State.port, get_update, if_true]
  unfold lookupStep
  rw [g]
  simp only [hl, if_true, carryQuery, answerQuery, hb', hdark, hserved]
  by_cases hk : isDark s c = true
  · have := hd hk
    rw [hl] at this
    simp [this]
  · simp [hk]

/-! ## Sends -/

theorem sendStep_chosen {kind : LinkKind} {send : Fin 16 → State → State} {p : Fin 16} {s : State}
    (h : nextSend s p = some kind) : sendStep kind send p s = send p s := by
  unfold sendStep
  rw [if_pos h]

/-! ## Numbers -/

/-- One byte spells at most 255. -/
theorem ofBytes_single (b : Byte) : ofBytes [b] = b.toNat := by simp [ofBytes]

/-- The value of a field of a shape: its length is one that the shape's parameter admits. -/
theorem shaped_length {params : List Param} {fs : List RawField} {id : Nat} {v : List Byte} (h : shaped params fs = true)
    (hv : bytesOf fs id = some v) : ∃ p ∈ params, p.id = id ∧ within p.least p.most v.length = true := by
  simp only [shaped, Bool.and_eq_true, List.all_eq_true, List.any_eq_true, beq_iff_eq] at h
  simp only [bytesOf, Option.map_eq_some_iff] at hv
  obtain ⟨f, hf, rfl⟩ := hv
  have hid : f.id = id := by simpa using List.find?_some hf
  obtain ⟨p, hp, hpid, hw⟩ := h.1.1 f (List.mem_of_find?_eq_some hf)
  exact ⟨p, hp, hpid.trans hid, hw⟩

/-! ## What shared operations do to what is read -/

theorem findStop_id {l : List Stop} {id : Nat} {x : Stop} (h : findStop l id = some x) : x.id = id := by
  simpa using List.find?_some h

/-- R57 for one coach. -/
theorem seatNews_of {c : Fin 16} {s t : State} (h : t.store.seatGens = (advanceSeat c s).store.seatGens)
    (hp : t.ports = (advanceSeat c s).ports) : seatNews [c] s t := by
  constructor
  · intro d
    simp only [State.seatGen, h, advanceSeat, get_update, List.mem_singleton]
    split <;> simp_all
  · intro r
    simp only [State.port, hp, advanceSeat, get_tabulate, Port.boundIn, List.any_cons, List.any_nil, Bool.or_false,
      Bool.and_eq_true, beq_iff_eq]

/-- R28. -/
theorem routeNews_of {s t : State} (h : t.route.gen = nextCount s.route.gen)
    (hp : t.ports = refreshBound (fun r => { r with route := true }) s.ports) : routeNews s t := by
  refine ⟨h, fun r => ?_⟩
  simp only [State.port, hp, refreshBound, Port.refreshed, get_tabulate]
  rfl

/-- R11. -/
theorem formationNews_of {s t : State} (h : t.formation.gen = nextCount s.formation.gen)
    (hp : t.ports = refreshBound (fun r => { r with formation := true }) s.ports) : formationNews s t := by
  refine ⟨h, fun r => ?_⟩
  simp only [State.port, hp, refreshBound, Port.refreshed, get_tabulate]
  rfl

theorem settlePool_texts (s : State) : (settlePool s).memory = s.memory := by
  unfold settlePool record retract
  repeat' split
  all_goals rfl

/-- R84. -/
theorem settlePool_poolLow (s : State) :
    Condition.poolLow ∈ (settlePool s).crew.attention ↔ s.memory.free < s.settings.lowWater := by
  unfold settlePool record retract
  repeat' split
  · simp_all
  · simp_all
  · simp_all

/-- Removing the slots with an id leaves the others where they are found. -/
theorem find_filter_id (l : List TextSlot) (id u : Nat) :
    (l.filter (fun t => t.id ≠ id)).find? (fun t => t.id == u) =
      if u = id then none else l.find? (fun t => t.id == u) := by
  induction l with
  | nil => simp
  | cons a l ih =>
    by_cases e : a.id = id
    · simp only [ne_eq, List.filter_cons, e, not_true, decide_false, Bool.false_eq_true, if_false, List.find?_cons]
      simp only [ne_eq] at ih
      rw [ih]
      by_cases hu : u = id
      · simp [hu]
      · have : (id == u) = false := by simp; omega
        simp [hu, this]
    · simp only [ne_eq, List.filter_cons, e, not_false_eq_true, decide_true, if_true, List.find?_cons]
      simp only [ne_eq] at ih
      rw [ih]
      by_cases hu : u = id
      · subst hu
        have : (a.id == u) = false := by simpa using e
        simp [this]
      · simp [hu]

/-- Changing the slots with an id changes what is found for it and nothing else. -/
theorem find_map_id (l : List TextSlot) (id u : Nat) (f : TextSlot → TextSlot) (hf : ∀ t, (f t).id = t.id) :
    (l.map (fun t => if t.id = id then f t else t)).find? (fun t => t.id == u) =
      if u = id then (l.find? (fun t => t.id == u)).map f else l.find? (fun t => t.id == u) := by
  induction l with
  | nil => simp
  | cons a l ih =>
    simp only [List.map_cons, List.find?_cons]
    by_cases hu : a.id = u
    · subst hu
      by_cases e : a.id = id
      · simp [e, hf]
      · simp [e]
    · have h1 : (a.id == u) = false := by simpa using hu
      have h2 : ((if a.id = id then f a else a).id == u) = false := by
        split <;> simp [hf, hu]
      simp only [h1, h2]
      exact ih

/-- R88: a reference is added. -/
theorem findText_addRef (id u : Nat) (s : State) :
    (addRef id s).findText u =
      if u = id then (s.findText u).map (fun t => { t with refs := t.refs + 1 }) else s.findText u :=
  find_map_id s.memory.texts id u _ (fun _ => rfl)

/-- R88, R90: a reference is released. -/
theorem textReleased_releaseRef (id : Nat) (s : State) : textReleased id s (releaseRef id s) := by
  intro u
  unfold releaseRef
  split
  · rename_i h
    split
    · subst_vars
      rw [h]; rfl
    · rfl
  · rename_i x h
    have hid : x.id = id := by simpa using List.find?_some h
    split
    · rename_i hc
      have : (freeText x s).findText u = (s.memory.texts.filter (fun t => t.id ≠ x.id)).find? (fun t => t.id == u) := by
        unfold freeText State.findText
        rw [settlePool_texts]
      rw [this, find_filter_id, hid]
      split
      · subst_vars
        rw [h]
        simp [TextSlot.released, hc]
      · rfl
    · rename_i hc
      have : ∀ r : State, r.memory.texts = (s.memory.texts.map
          (fun t => if t.id = id then { t with refs := t.refs - 1 } else t)) → r.findText u =
            if u = id then (s.findText u).map (fun t => { t with refs := t.refs - 1 }) else s.findText u := by
        intro r hr
        unfold State.findText
        rw [hr]
        exact find_map_id s.memory.texts id u _ (fun _ => rfl)
      rw [this _ rfl]
      split
      · subst_vars
        rw [h]
        simp [TextSlot.released, hc]
      · rfl

/-- R90: the blocks of a slot that a release empties come back. -/
theorem releaseRef_free (id : Nat) (s : State) : (releaseRef id s).memory.free =
    s.memory.free + ((((s.findText id).filter (fun x => x.released.isNone)).map
      (fun x => textBlocks x.bytes.length)).getD 0) := by
  unfold releaseRef
  split
  · rename_i h
    simp [h]
  · rename_i x h
    split
    · rename_i hc
      unfold freeText
      rw [settlePool_texts]
      simp [h, TextSlot.released, hc, Option.filter]
    · rename_i hc
      simp [h, TextSlot.released, hc, Option.filter]

/-- POOL_LOW stands as R84 has it. -/
def poolJudged (s : State) : Prop := Condition.poolLow ∈ s.crew.attention ↔ s.memory.free < s.settings.lowWater

theorem settlePool_judged (s : State) : poolJudged (settlePool s) := by
  unfold poolJudged
  rw [settlePool_poolLow, settlePool_texts, settlePool_changes s .settings (by decide)]

theorem releaseRef_judged (id : Nat) {s : State} (h : poolJudged s) : poolJudged (releaseRef id s) := by
  unfold releaseRef
  split
  · exact h
  · split
    · exact settlePool_judged _
    · exact h

end Sys2Proof.Machine
end

