-- ==== Sys2Proof/Laws/PerInstr.lean ====
section
/-! SUPPORT. The family WellFormed: for each command, what its well-formedness says of its operands. -/

namespace Sys2Proof

/-- What the checks of a command come to: only six rows have operands that their types do not hold to the row. -/
def Laws.WellFormed.Statement (i : Instr) : Prop :=
  match i with
  | .startUpEnd failed =>
    i.wellFormed = true ↔ (∀ b ∈ failed, b < Config.poolBlocks) ∧ strictlyRising failed = true
  | .unknownTransfer first _ =>
    i.wellFormed = true ↔
      first ≠ Config.orderTransfer ∧ first ≠ Config.fetchTransfer ∧ first ≠ Config.refetchTransfer
  | .greet _ label maximum revision =>
    i.wellFormed = true ↔ (1 ≤ label.length ∧ label.length ≤ 3) ∧ (1 ≤ maximum ∧ maximum ≤ 32) ∧
      (1 ≤ revision ∧ revision ≤ 255)
  | .query _ fields =>
    i.wellFormed = true ↔
      (∃ tag, queryTag fields = some tag) ∧ (∀ f ∈ fields, fieldFits f = true) ∧ bodyLength fields ≤ Config.maxLinkBody
  | .noticeReceipt _ entry edition =>
    i.wellFormed = true ↔ (1 ≤ entry ∧ entry ≤ 24) ∧ (1 ≤ edition ∧ edition ≤ 65535)
  | .frameError _ bytes breaks => i.wellFormed = true ↔ ∀ b ∈ breaks, b ≤ bytes.length
  | _ => i.wellFormed = true

theorem Laws.WellFormed.powerOn (strap : StartKind) : Laws.WellFormed.Statement (.powerOn strap) := rfl
theorem Laws.WellFormed.resetNAsserted : Laws.WellFormed.Statement .resetNAsserted := rfl
theorem Laws.WellFormed.resetNReleased : Laws.WellFormed.Statement .resetNReleased := rfl
theorem Laws.WellFormed.startUpEnd (failed : List Nat) : Laws.WellFormed.Statement (.startUpEnd failed) := by
  simp [Laws.WellFormed.Statement, Instr.wellFormed]
theorem Laws.WellFormed.orderTransfer (bytes : List Byte) : Laws.WellFormed.Statement (.orderTransfer bytes) := rfl
theorem Laws.WellFormed.fetch (clocked : Nat) : Laws.WellFormed.Statement (.fetch clocked) := rfl
theorem Laws.WellFormed.refetch (clocked : Nat) : Laws.WellFormed.Statement (.refetch clocked) := rfl
theorem Laws.WellFormed.unknownTransfer (first : Byte) (clocked : Nat) : Laws.WellFormed.Statement (.unknownTransfer first clocked) := by
  simp [Laws.WellFormed.Statement, Instr.wellFormed, and_assoc]
theorem Laws.WellFormed.unknownOrder : Laws.WellFormed.Statement .unknownOrder := rfl
theorem Laws.WellFormed.setCoach : Laws.WellFormed.Statement .setCoach := rfl
theorem Laws.WellFormed.removeCoach : Laws.WellFormed.Statement .removeCoach := rfl
theorem Laws.WellFormed.attach : Laws.WellFormed.Statement .attach := rfl
theorem Laws.WellFormed.detach : Laws.WellFormed.Statement .detach := rfl
theorem Laws.WellFormed.setLevel : Laws.WellFormed.Statement .setLevel := rfl
theorem Laws.WellFormed.putStop : Laws.WellFormed.Statement .putStop := rfl
theorem Laws.WellFormed.removeStop : Laws.WellFormed.Statement .removeStop := rfl
theorem Laws.WellFormed.cancelStop : Laws.WellFormed.Statement .cancelStop := rfl
theorem Laws.WellFormed.reinstateStop : Laws.WellFormed.Statement .reinstateStop := rfl
theorem Laws.WellFormed.setDelay : Laws.WellFormed.Statement .setDelay := rfl
theorem Laws.WellFormed.start : Laws.WellFormed.Statement .start := rfl
theorem Laws.WellFormed.approach : Laws.WellFormed.Statement .approach := rfl
theorem Laws.WellFormed.arrive : Laws.WellFormed.Statement .arrive := rfl
theorem Laws.WellFormed.releaseDoors : Laws.WellFormed.Statement .releaseDoors := rfl
theorem Laws.WellFormed.depart : Laws.WellFormed.Statement .depart := rfl
theorem Laws.WellFormed.book : Laws.WellFormed.Statement .book := rfl
theorem Laws.WellFormed.confirm : Laws.WellFormed.Statement .confirm := rfl
theorem Laws.WellFormed.cancel : Laws.WellFormed.Statement .cancel := rfl
theorem Laws.WellFormed.cancelCode : Laws.WellFormed.Statement .cancelCode := rfl
theorem Laws.WellFormed.move : Laws.WellFormed.Statement .move := rfl
theorem Laws.WellFormed.replace : Laws.WellFormed.Statement .replace := rfl
theorem Laws.WellFormed.putText : Laws.WellFormed.Statement .putText := rfl
theorem Laws.WellFormed.dropText : Laws.WellFormed.Statement .dropText := rfl
theorem Laws.WellFormed.issue : Laws.WellFormed.Statement .issue := rfl
theorem Laws.WellFormed.amend : Laws.WellFormed.Statement .amend := rfl
theorem Laws.WellFormed.withdraw : Laws.WellFormed.Statement .withdraw := rfl
theorem Laws.WellFormed.set : Laws.WellFormed.Statement .set := rfl
theorem Laws.WellFormed.acknowledge : Laws.WellFormed.Statement .acknowledge := rfl
theorem Laws.WellFormed.enterStabled : Laws.WellFormed.Statement .enterStabled := rfl
theorem Laws.WellFormed.leaveStabled : Laws.WellFormed.Statement .leaveStabled := rfl
theorem Laws.WellFormed.journeyClear : Laws.WellFormed.Statement .journeyClear := rfl
theorem Laws.WellFormed.seat : Laws.WellFormed.Statement .seat := rfl
theorem Laws.WellFormed.seatNext : Laws.WellFormed.Statement .seatNext := rfl
theorem Laws.WellFormed.seatCursor : Laws.WellFormed.Statement .seatCursor := rfl
theorem Laws.WellFormed.stopRel : Laws.WellFormed.Statement .stopRel := rfl
theorem Laws.WellFormed.stopAt : Laws.WellFormed.Statement .stopAt := rfl
theorem Laws.WellFormed.routeWindow : Laws.WellFormed.Statement .routeWindow := rfl
theorem Laws.WellFormed.notices : Laws.WellFormed.Statement .notices := rfl
theorem Laws.WellFormed.formation : Laws.WellFormed.Statement .formation := rfl
theorem Laws.WellFormed.self : Laws.WellFormed.Statement .self := rfl
theorem Laws.WellFormed.continue : Laws.WellFormed.Statement .continue := rfl
theorem Laws.WellFormed.reservation : Laws.WellFormed.Statement .reservation := rfl
theorem Laws.WellFormed.booking : Laws.WellFormed.Statement .booking := rfl
theorem Laws.WellFormed.coach : Laws.WellFormed.Statement .coach := rfl
theorem Laws.WellFormed.port : Laws.WellFormed.Statement .port := rfl
theorem Laws.WellFormed.text : Laws.WellFormed.Statement .text := rfl
theorem Laws.WellFormed.notice : Laws.WellFormed.Statement .notice := rfl
theorem Laws.WellFormed.pool : Laws.WellFormed.Statement .pool := rfl
theorem Laws.WellFormed.lines : Laws.WellFormed.Statement .lines := rfl
theorem Laws.WellFormed.settings : Laws.WellFormed.Statement .settings := rfl
theorem Laws.WellFormed.identity : Laws.WellFormed.Statement .identity := rfl
theorem Laws.WellFormed.carrierQualified (port : Fin 16) : Laws.WellFormed.Statement (.carrierQualified port) := rfl
theorem Laws.WellFormed.linkLost (port : Fin 16) : Laws.WellFormed.Statement (.linkLost port) := rfl
theorem Laws.WellFormed.greet (port : Fin 16) (label : List Byte) (maximum revision : Nat) : Laws.WellFormed.Statement (.greet port label maximum revision) := by
  simp [Laws.WellFormed.Statement, Instr.wellFormed, greetShape, and_assoc]
theorem Laws.WellFormed.query (port : Fin 16) (fields : List RawField) : Laws.WellFormed.Statement (.query port fields) := by
  simp [Laws.WellFormed.Statement, Instr.wellFormed, queryShape, Option.isSome_iff_exists, and_assoc]
theorem Laws.WellFormed.noticeReceipt (port : Fin 16) (entry edition : Nat) : Laws.WellFormed.Statement (.noticeReceipt port entry edition) := by
  simp [Laws.WellFormed.Statement, Instr.wellFormed, receiptShape, and_assoc]
theorem Laws.WellFormed.levelReceipt (port : Fin 16) : Laws.WellFormed.Statement (.levelReceipt port) := rfl
theorem Laws.WellFormed.releaseReceipt (port : Fin 16) : Laws.WellFormed.Statement (.releaseReceipt port) := rfl
theorem Laws.WellFormed.wake (port : Fin 16) : Laws.WellFormed.Statement (.wake port) := rfl
theorem Laws.WellFormed.frameError (port : Fin 16) (bytes : List Byte) (breaks : List Nat) : Laws.WellFormed.Statement (.frameError port bytes breaks) := by
  simp [Laws.WellFormed.Statement, Instr.wellFormed]
theorem Laws.WellFormed.welcome (port : Fin 16) : Laws.WellFormed.Statement (.welcome port) := rfl
theorem Laws.WellFormed.level (port : Fin 16) : Laws.WellFormed.Statement (.level port) := rfl
theorem Laws.WellFormed.release (port : Fin 16) : Laws.WellFormed.Statement (.release port) := rfl
theorem Laws.WellFormed.answer (port : Fin 16) : Laws.WellFormed.Statement (.answer port) := rfl
theorem Laws.WellFormed.pull (port : Fin 16) : Laws.WellFormed.Statement (.pull port) := rfl
theorem Laws.WellFormed.push (port : Fin 16) : Laws.WellFormed.Statement (.push port) := rfl
theorem Laws.WellFormed.refresh (port : Fin 16) : Laws.WellFormed.Statement (.refresh port) := rfl
theorem Laws.WellFormed.tick : Laws.WellFormed.Statement .tick := rfl
theorem Laws.WellFormed.provisionalHoldExpiry (coach : Fin 16) : Laws.WellFormed.Statement (.provisionalHoldExpiry coach) := rfl
theorem Laws.WellFormed.lifetimeExpiry (entry : Fin 24) : Laws.WellFormed.Statement (.lifetimeExpiry entry) := rfl
theorem Laws.WellFormed.receiptDeadlineExpiry (entry : Fin 24) : Laws.WellFormed.Statement (.receiptDeadlineExpiry entry) := rfl
theorem Laws.WellFormed.pushTimeout (coach : Fin 16) : Laws.WellFormed.Statement (.pushTimeout coach) := rfl
theorem Laws.WellFormed.detachDeadlineExpiry : Laws.WellFormed.Statement .detachDeadlineExpiry := rfl
theorem Laws.WellFormed.stablingDeadlineExpiry : Laws.WellFormed.Statement .stablingDeadlineExpiry := rfl
theorem Laws.WellFormed.lineInputChange (line : Fin 8) (level : LineLevel) : Laws.WellFormed.Statement (.lineInputChange line level) := rfl
theorem Laws.WellFormed.filteredChange (line : Fin 8) : Laws.WellFormed.Statement (.filteredChange line) := rfl
theorem Laws.WellFormed.lineArrive : Laws.WellFormed.Statement .lineArrive := rfl
theorem Laws.WellFormed.lineDepart : Laws.WellFormed.Statement .lineDepart := rfl
theorem Laws.WellFormed.lineApproach : Laws.WellFormed.Statement .lineApproach := rfl
theorem Laws.WellFormed.lineReleaseDoors (side : LineSide) : Laws.WellFormed.Statement (.lineReleaseDoors side) := rfl
theorem Laws.WellFormed.couplerEvent (portion : CouplerPortion) (active : Bool) : Laws.WellFormed.Statement (.couplerEvent portion active) := rfl
theorem Laws.WellFormed.doorEvent : Laws.WellFormed.Statement .doorEvent := rfl
theorem Laws.WellFormed.stablingRequest : Laws.WellFormed.Statement .stablingRequest := rfl
theorem Laws.WellFormed.incomingCarrierChange (port : Fin 16) (present : Bool) : Laws.WellFormed.Statement (.incomingCarrierChange port present) := rfl
theorem Laws.WellFormed.unknownLocator : Laws.WellFormed.Statement .unknownLocator := rfl

end Sys2Proof
end

