-- ==== Sys2Proof/Tests/Slice0.lean ====
section
/-! SUPPORT. Tests: the checks of WellFormed, single operations against the spec's own numbers, and for every statement
with hypotheses a state and operands that meet them, clause by clause and at the ends of the ranges. -/

namespace Sys2Proof.Tests

open Sys2Proof.Machine

set_option Elab.async false

/-! ## WellFormed refuses an ill-formed term at each check -/

theorem test_wellFormed_blocks :
    (Instr.startUpEnd [2048]).wellFormed = false ∧ (Instr.startUpEnd [7, 7]).wellFormed = false ∧
      (Instr.startUpEnd [0, 2047]).wellFormed = true := by decide

theorem test_wellFormed_transfer :
    (Instr.unknownTransfer 0xA1 3).wellFormed = false ∧ (Instr.unknownTransfer 0xA2 3).wellFormed = false ∧
      (Instr.unknownTransfer 0xA3 3).wellFormed = false ∧ (Instr.unknownTransfer 0xA0 3).wellFormed = true := by decide

theorem test_wellFormed_greet :
    (Instr.greet 0 [] 1 1).wellFormed = false ∧ (Instr.greet 0 [65, 65, 65, 65] 1 1).wellFormed = false ∧
      (Instr.greet 0 [65] 0 1).wellFormed = false ∧ (Instr.greet 0 [65] 33 1).wellFormed = false ∧
      (Instr.greet 0 [65] 1 0).wellFormed = false ∧ (Instr.greet 0 [65] 1 256).wellFormed = false ∧
      (Instr.greet 15 [65, 66, 67] 32 255).wellFormed = true := by decide

theorem test_wellFormed_query :
    (Instr.query 0 []).wellFormed = false ∧ (Instr.query 0 [⟨1, [8]⟩]).wellFormed = false ∧
      (Instr.query 0 [⟨1, [0]⟩, ⟨1, [0]⟩]).wellFormed = false ∧ (Instr.query 0 [⟨1, [0, 0]⟩]).wellFormed = false ∧
      (Instr.query 0 [⟨1, [7]⟩]).wellFormed = true := by decide

theorem test_wellFormed_breaks :
    (Instr.frameError 0 [0xC5] [2]).wellFormed = false ∧ (Instr.frameError 0 [0xC5] [0, 1]).wellFormed = true := by decide

theorem test_wellFormed_receipt :
    (Instr.noticeReceipt 0 0 1).wellFormed = false ∧ (Instr.noticeReceipt 0 25 1).wellFormed = false ∧
      (Instr.noticeReceipt 0 1 0).wellFormed = false ∧ (Instr.noticeReceipt 0 1 65536).wellFormed = false ∧
      (Instr.noticeReceipt 0 24 65535).wellFormed = true := by decide

/-! ## Single operations -/

/-- 11.1 gives the frame check of the nine ASCII digits. -/
theorem test_frameCheck : frameCheck [0x31, 0x32, 0x33, 0x34, 0x35, 0x36, 0x37, 0x38, 0x39] = 0x29B1 := by
  decide +kernel

theorem test_generation_wraps : nextCount 65535 = 1 ∧ nextCount 1 = 2 := by decide

theorem test_textBlocks : textBlocks 1 = 1 ∧ textBlocks 32 = 1 ∧ textBlocks 33 = 2 ∧ textBlocks 240 = 8 := by decide

/-! ## Parameters and a sample of the part -/

def b (id n : Nat) : RawField := ⟨id, u8 n⟩
def w (id n : Nat) : RawField := ⟨id, u16 n⟩
def q (id n : Nat) : RawField := ⟨id, u32 n⟩

def coachAt (label : List Byte) (port : Fin 16) (portion : Portion) (position seats : Nat) : Coach :=
  ⟨label, some port, portion, position, seats, false, true, .full, none, .online⟩

/-- Stop 1 is a SPLIT with side LEFT, 3 is cancelled, 250 has side RIGHT; portions A and B serve them all. -/
def sampleStops : List Stop :=
  [⟨1, 1, none, some .left, none, none, 0, ⟨true, true, false⟩, .split, false⟩,
    ⟨3, 1, none, none, none, none, 255, ⟨true, true, false⟩, .call, true⟩,
    ⟨250, 511, some 99, some .right, some 0, some 1439, 0, ⟨true, true, false⟩, .call, false⟩]

/-- A live notice for portions A and B, in entry 21. -/
def note : LiveNotice :=
  { kind := .custom, priority := 7, target := .portions ⟨true, true, false⟩, text := 1, subject := none,
    lifetime := some 1, edition := 1, start := 0, state := .delivering 1,
    delivery := (CoachSet.none.insert 0).insert 15, receipted := CoachSet.none, holders := CoachSet.none.insert 0 }

def boundTo (c : Fin 16) (label : List Byte) : Port :=
  { Port.powerOn true with state := .bound, bound := some c, greeted := some label, maximum := 32 }

/-- Coach 1 in portion A on port 0, coach 16 in portion B on port 15, both BOUND; A and B stand at stop 1. -/
def sample : State :=
  { State.reset with
    formation := ⟨update (update (Vector.replicate 16 none) 0 (fun _ => some (coachAt [65] 0 .a 1 8))) 15
        (fun _ => some (coachAt [66] 15 .b 16 120)),
      ⟨⟨.attached, some .atPlatform, some 1, some 1, none⟩, ⟨.attached, some .atPlatform, some 1, some 1, none⟩, .vacant⟩,
      65535⟩
    route := ⟨sampleStops, 65535⟩
    store := ⟨[⟨1, 0, 8, 1, 250, some 7, some 1, .confirmed, .active, 0⟩,
        ⟨65534, 15, 120, 1, 250, some 7, none, .provisional 1, .active, 2047⟩], 65534, Vector.replicate 16 65535⟩
    memory := ⟨2036, 2, 10, [], [⟨1, [65], 4, false, [1]⟩, ⟨2, List.replicate 32 66, 0, false, [2]⟩,
      ⟨511, List.replicate 240 67, 1, true, [5, 4, 3, 6, 7, 8, 9, 10]⟩]⟩
    notice := ⟨update (Vector.replicate 24 ⟨1, none⟩) 20 (fun _ => ⟨2, some note⟩),
      update (Vector.replicate 16 .empty) 0 (fun _ => ⟨[.push 20 1], [⟨20, 1, 1⟩]⟩), 65535⟩
    ports := update (update (Vector.replicate 16 (.powerOn false)) 0 (fun _ => boundTo 0 [65])) 15
      (fun _ => boundTo 15 [66])
    crew := ⟨[], none, none, [.started], []⟩
    time := { State.reset.time with startUp := none } }

def order (kind : Nat) (fs : List RawField) : Order := ⟨15, kind, fs⟩

/-- A state in which the crew port holds one order. -/
def ask (kind : Nat) (fs : List RawField) (s : State) : State := { s with crew.slots := [⟨order kind fs, .taken⟩] }

/-- A state in which a port holds one query. -/
def asking (p : Fin 16) (fs : List RawField) (s : State) : State :=
  s.updPort p (fun r => { r with waiting := [⟨7, fs⟩] })

def withPhase (p : Portion) (phase : Phase) (current : Nat) (s : State) : State :=
  s.updPortion p (fun r => { r with phase := some phase, current := some current })

/-- The order of a command is granted next in the sample with its fields in a slot. -/
abbrev offered (i : Instr) (kind : Nat) (fs : List RawField) (s : State) : Prop :=
  ordered i (ask kind fs s) (order kind fs)

theorem forall_live {s : State} {p : LiveNotice → Bool} (h : ∀ e, (s.entry e).live.all p = true) :
    ∀ e l, (s.entry e).live = some l → p l = true := by
  intro e l hl
  have := h e
  rwa [hl] at this

/-! ## The laws hold in the sample, whose steps answer next states -/

theorem sample_binding : BindingLaw sample := ⟨by decide +kernel, by decide +kernel, by decide +kernel⟩

theorem ask_binding {s : State} (kind : Nat) (fs : List RawField) (h : BindingLaw s) : BindingLaw (ask kind fs s) :=
  ⟨h.named, h.bound, h.only⟩

theorem ask_pool {s : State} (kind : Nat) (fs : List RawField) (h : PoolLaw s) : PoolLaw (ask kind fs s) :=
  ⟨h.total, h.reserved, h.text, h.handles, h.ids, h.blocks, h.chains, h.fresh⟩

theorem sample_pool : PoolLaw sample :=
  ⟨by decide +kernel, by decide, by decide +kernel, by decide, by decide, by decide +kernel, by decide +kernel,
    fun h => nomatch h⟩

theorem test_meets_kept_memory :
    PoolLaw sample ∧ PoolLowLaw sample ∧ ∃ t, step { sample with pending := [.tick] } = .next t :=
  ⟨sample_pool, by unfold PoolLowLaw; decide +kernel, _, rfl⟩

theorem test_meets_kept_slots :
    QuerySlotLaw sample ∧ CrewSlotLaw sample ∧ BindingLaw sample ∧ ListLaw sample :=
  ⟨⟨by decide +kernel, by decide +kernel⟩, by unfold CrewSlotLaw; decide, sample_binding,
    by unfold ListLaw; decide +kernel⟩

theorem test_meets_kept_references_and_chains :
    (PoolLaw sample ∧ RefLaw sample) ∧ PoolLaw sample ∧ ChainLaw sample :=
  ⟨⟨sample_pool, by decide, by decide, by decide, by decide +kernel, by decide +kernel, by decide +kernel, by decide +kernel⟩,
    sample_pool, by decide, by decide, by decide +kernel, by decide +kernel⟩

/-- The sample with portion A DETACHING, its deadline running. -/
def detaching : State := sample.updPortion .a (fun r => { r with state := .detaching, deadline := some 1 })

theorem test_meets_kept_pushes_and_progress :
    PushLaw sample ∧ DeliveredLaw sample ∧ PortionLaw sample ∧ PortionLaw detaching := by
  refine ⟨⟨sample_binding, ?_, by decide +kernel⟩, by unfold DeliveredLaw; decide +kernel, ⟨by decide, ?_, ?_, ?_⟩,
    ⟨by decide, ?_, ?_, ?_⟩⟩ <;>
    first
    | (intro p q; cases p <;> cases q <;> decide +kernel)
    | (intro p; cases p <;> decide +kernel)

theorem test_meets_kept_counts : StablingLaw sample ∧ CountLaw sample ∧ AttentionLaw sample :=
  ⟨⟨by decide +kernel, by decide⟩,
    ⟨by decide, by decide, by decide, by decide +kernel, by decide +kernel, by decide⟩, by unfold AttentionLaw; decide⟩

/-! ## Frames and transfers -/

theorem test_meets_FramesReadBack_order :
    let longest : List RawField := [⟨Config.itemField, List.replicate 509 0⟩]
    let wide : List RawField := [⟨255, List.replicate 255 0⟩]
    (∀ f ∈ longest, fieldFits f = true) ∧ (fieldsBytes longest).length = Config.maxOrderBody ∧
      (∀ f ∈ wide, fieldFits f = true) ∧ (fieldsBytes wide).length ≤ Config.maxOrderBody := by decide +kernel

theorem test_meets_FramesReadBack_coach :
    (CoachFrame.greet [65] 1 1).fits = true ∧ (CoachFrame.greet [65, 66, 67] 32 255).fits = true ∧
      (CoachFrame.query [b 1 7]).fits = true ∧ (CoachFrame.noticeReceipt 24 65535).fits = true ∧
      CoachFrame.levelReceipt.fits = true := by decide +kernel

def attachFrame : List Byte := orderFrame 15 3 [b 1 2]

/-- A state whose crew port holds n orders. -/
def holding (n : Nat) : State := { sample with crew.slots := List.replicate n ⟨order 3 [], .taken⟩ }

theorem test_meets_CrewTransfersAreAnswered_order :
    orderFrameLength (attachFrame ++ [0]) = some attachFrame.length ∧
      judgeOrder attachFrame = some ⟨15, 3, [b 1 2]⟩ ∧ State.reset.time.startUp ≠ none ∧
      sample.time.startUp = none ∧ sample.time.resetHeld = false ∧ (holding 3).crew.slots.length < 4 ∧
      4 ≤ (holding 4).crew.slots.length ∧ judgeOrder (15 :: attachFrame.drop 1 ++ []) ≠ none ∧
      judgeOrder (16 :: attachFrame.drop 1) = none ∧
      (orderFrameLength attachFrame).all (fun n => attachFrame.length ≤ n) = true ∧ orderFrameLength [0, 0, 0] = none := by
  decide +kernel

def anAnswer : CrewAnswer := ⟨15, 3, okWith []⟩

def answering : State := { sample with crew.slots := [⟨order 3 [b 1 2], .answerReady (okWith [])⟩] }

theorem test_meets_CrewTransfersAreAnswered_fetch :
    answering.running = true ∧ answerQueue answering = [anAnswer] ∧ anAnswer.frame.length = 10 ∧
      answerQueue sample = [] ∧ State.reset.time.startUp ≠ none ∧ sample.crew.lastFetched = none ∧
      { sample with crew.lastFetched := some anAnswer }.crew.lastFetched = some anAnswer ∧
      (Instr.unknownTransfer 0xA4 0).wellFormed = true := by decide +kernel

theorem test_fetch_completes :
    (match exec (.fetch 10) answering with
      | .next t => t.crew.out == anAnswer.frame && answerQueue t == [] && t.crew.lastFetched == some anAnswer
      | _ => false) = true := by decide +kernel

/-! ## Orders -/

theorem test_meets_AGrantedOrderIsAnsweredOnce :
    nextGrant (ask 3 [b 1 2] sample) = some (.crew (order 3 [b 1 2])) ∧ orderKind .attach = some 3 ∧
      shaped (orderShape .attach) [] = false ∧ nextGrant (ask 3 [] sample) = some (.crew (order 3 [])) ∧
      nextGrant (ask 0 [] sample) = some (.crew (order 0 [])) ∧
      nextGrant (ask 33 [] sample) = some (.crew (order 33 [])) ∧
      nextGrant (ask 255 [] sample) = some (.crew (order 255 [])) ∧ nextGrant sample = none := by decide +kernel

theorem test_meets_AttachMakesAPortionAttached :
    offered .attach 3 [b 1 2] sample ∧ Portion.ofCode (num [b 1 2] 1) = some .c ∧
      (sample.portion .c).state = .vacant := by decide +kernel

/-- The sample with the port of coach 1 not BOUND. -/
def unlinked : State := sample.updPort 0 (fun r => { r with state := .unbound, bound := none })

theorem test_meets_DetachWaitsOrCompletes :
    (offered .detach 4 [b 1 0] sample ∧ sample.detachingPortion = none ∧ (sample.portion .a).state = .attached ∧
      (sample.portion .b).state = .attached ∧ standsAtSplit sample .a = true ∧
      sample.portionOf 0 = some .a ∧ (sample.boundPort 0).isSome = true) ∧
    (offered .detach 4 [b 1 0] unlinked ∧ standsAtSplit unlinked .a = true ∧
      (∀ c, unlinked.portionOf c = some .a → unlinked.boundPort c = none) ∧ (heldHandles unlinked).Nodup) := by
  decide +kernel

theorem test_meets_SetLevelSetsLevels :
    (offered .setLevel 5 [b 1 16, b 3 2] sample ∧ coachNo 16 = some 15 ∧ (sample.coach 15).isSome = true ∧
      Level.ofCode 2 = some .dark ∧ sample.boundPort 15 = some 15) ∧
    (offered .setLevel 5 [b 2 1, b 3 0] sample ∧ Portion.ofCode 1 = some .b ∧ (sample.portion .b).state ≠ .vacant) := by
  decide +kernel

/-- R191: both coaches of a DELIVERING notice go DARK together, coach 16 having receipted: it is not DELIVERED. -/
theorem test_levels_change_together :
    litCoaches sample all16 = (CoachSet.none.insert 0).insert 15 ∧
      (match exec .enterStabled (ask 30 [] (sample.updEntry 20 (fun _ =>
          ⟨2, some { note with receipted := CoachSet.none.insert 15 }⟩))) with
        | .next t => (t.entry 20).live == some { note with delivery := CoachSet.none } && t.crew.attention == [.started]
        | _ => false) = true := by decide +kernel

def newCoach : List RawField := [b 1 2, ⟨2, [67, 67, 67]⟩, b 3 1, b 4 0, b 5 2, b 6 120]
def sameCoach : List RawField := [b 1 1, ⟨2, [65]⟩, b 3 0, b 4 0, b 5 1, b 6 8]
def movedCoach : List RawField := [b 1 16, ⟨2, [68]⟩, b 3 14, b 4 0, b 5 3, b 6 120, b 7 0, b 8 1]

/-- The sample with a CDC on port 1 that no entry names. -/
def greeted : State := sample.updPort 1 (fun r => { r with state := .unbound, greeted := some [67, 67, 67], carrier := true })

theorem greeted_binding : BindingLaw greeted := ⟨by decide +kernel, by decide +kernel, by decide +kernel⟩

theorem test_meets_SetCoachWritesTheEntry :
    (offered .setCoach 1 newCoach greeted ∧ ∃ r, readCoachOrder newCoach = some r ∧
      refusal (coachChecks (ask 1 newCoach greeted) r) = none ∧ greeted.coach r.coach = none ∧
      (greeted.port 1).standsAs r.label = true) ∧
    (offered .setCoach 1 sameCoach sample ∧ ∃ r, readCoachOrder sameCoach = some r ∧
      refusal (coachChecks (ask 1 sameCoach sample) r) = none ∧
      ∃ k, sample.coach r.coach = some k ∧ r.port = k.port ∧ r.label = k.label ∧ r.portion = k.portion) ∧
    (offered .setCoach 1 movedCoach sample ∧ ∃ r, readCoachOrder movedCoach = some r ∧
      refusal (coachChecks (ask 1 movedCoach sample) r) = none ∧ (sample.coach r.coach).isSome = true) ∧
    BindingLaw (ask 1 newCoach greeted) :=
  ⟨⟨by decide +kernel, ⟨1, [67, 67, 67], some 1, .a, 2, 120, none, none⟩, by decide +kernel⟩,
    ⟨by decide +kernel, ⟨0, [65], some 0, .a, 1, 8, none, none⟩, by decide +kernel, by decide +kernel,
      coachAt [65] 0 .a 1 8, by decide +kernel⟩,
    ⟨by decide +kernel, ⟨15, [68], some 14, .a, 3, 120, some true, some false⟩, by decide +kernel⟩,
    ask_binding _ _ greeted_binding⟩

/-- The sample without reservations. -/
def unbooked : State := { sample with store.reservations := [] }

theorem test_meets_RemoveCoachVacatesTheEntry :
    offered .removeCoach 2 [b 1 16] unbooked ∧ coachNo 16 = some 15 ∧
      unbooked.coach 15 = some (coachAt [66] 15 .b 16 120) ∧ (unbooked.portion .b).state ≠ .detaching ∧
      coachReservations unbooked 15 = [] ∧ BindingLaw (ask 2 [b 1 16] unbooked) :=
  ⟨by decide +kernel, by decide, by decide +kernel, by decide, by decide,
    ⟨sample_binding.named, sample_binding.bound, sample_binding.only⟩⟩

/-- A stop with an id at a position, with text 2 as its name. -/
def putFields (id position : Nat) : List RawField := [b 1 id, b 2 position, w 3 2, b 9 3, b 10 1]

theorem test_meets_PutStopWritesTheStopTable :
    (∀ fs ∈ [putFields 2 4, putFields 249 2, putFields 250 3, putFields 1 1],
      offered .putStop 6 fs sample ∧ putMalformed sample fs = false ∧ putOutOfRange sample fs = false ∧
        refusal (putChecks sample fs) = none) ∧
    placeOf sampleStops 2 = none ∧ placeOf sampleStops 249 = none ∧ placeOf sampleStops 250 = some 2 ∧
      (findStop sampleStops 250).isSome = true ∧ placeOf sampleStops 1 = some 0 := by decide +kernel

theorem test_meets_RemoveStopFollowsItsRule :
    (∀ n ∈ [0, 1, 2, 3, 250, 251], offered .removeStop 7 [b 1 n] sample) ∧
      within 1 250 0 = false ∧ within 1 250 251 = false ∧ findStop sampleStops 2 = none ∧
      (findStop sampleStops 250).map (·.id) = some 250 ∧ (findStop sampleStops 3).map (·.id) = some 3 ∧
      (∃ r ∈ sample.store.reservations, r.board = 250 ∨ r.alight = 250) ∧
      (∀ r ∈ sample.store.reservations, r.board ≠ 3 ∧ r.alight ≠ 3) := by decide +kernel

/-- Three records in use, one for each clause of R35; and none for stop 3. -/
theorem test_meets_RemoveStop_records :
    ((unbooked.portion .a).current = some 1) ∧
      (∃ l, ((unbooked.updEntry 0 (fun n => { n with live := some { note with subject := some 250 } })).entry 0).live =
        some l ∧ l.subject = some 250) ∧
      (∀ p, (sample.portion p).current ≠ some 3 ∧ (sample.portion p).lastArrived ≠ some 3) ∧
      ∀ e l, (sample.entry e).live = some l → l.subject ≠ some 3 :=
  ⟨by decide, ⟨_, rfl, rfl⟩, by intro p; cases p <;> decide,
    fun e l h => by
      simpa using forall_live (s := sample) (p := fun l => l.subject != some 3) (by decide +kernel) e l h⟩

theorem test_meets_CancelAndReinstateWriteTheFlag :
    (∀ n ∈ [3, 250], offered .cancelStop 8 [b 1 n] sample ∧ offered .reinstateStop 9 [b 1 n] sample) ∧
      (findStop sampleStops 3).any (·.cancelled) = true ∧ (findStop sampleStops 250).any (fun x => !x.cancelled) = true ∧
      (∀ x ∈ findStop sampleStops 250, refusal (cancelChecks (ask 8 [b 1 250] sample) x) = none) := by decide +kernel

theorem test_meets_SetDelayFollowsItsRule :
    (∀ n ∈ [0, 1, 2, 250, 251], offered .setDelay 10 [b 1 n, b 2 255] sample) ∧ within 1 250 251 = false ∧
      findStop sampleStops 2 = none ∧ (findStop sampleStops 1).isSome = true ∧
      (findStop sampleStops 250).isSome = true := by decide +kernel

theorem test_meets_StartAndArriveBringAPortionToAStop :
    (offered .start 11 [b 1 1, b 2 250] sample ∧
      (findStop sampleStops 250).any (fun x => x.portions.mem .b && !x.cancelled) = true ∧ (heldHandles sample).Nodup) ∧
    (∀ s ∈ [withPhase .b .approaching 250 sample,
        { withPhase .b .enRoute 250 sample with settings.arrivalNeedsApproach := false }],
      offered .arrive 13 [b 1 1] s ∧ (s.portion .b).current = some 250 ∧ (s.portion .b).state = .attached ∧
      ((s.portion .b).phase = some .approaching ∨
        (s.portion .b).phase = some .enRoute ∧ s.settings.arrivalNeedsApproach = false)) := by decide +kernel

/-- The sample with a live stop notice of portion B, held by coach 16, and with stop notices for departures off. -/
def announced : State :=
  { sample.updEntry 22 (fun _ => ⟨5, some { note with
      target := .portions (.single .b), text := 1, holders := CoachSet.none.insert 15 }⟩) with
    settings.autoNextStop := false }

/-- R105: the request begins an edition at stop 1; not at stop 250, whose name is retiring; with its kind off it frees the
entry. -/
theorem test_meets_stop_notice_requests :
    (findStop sampleStops 1).any (stopNoticeBegins sample .b .atStop) = true ∧
      (findStop sampleStops 250).any (stopNoticeBegins sample .b .atStop) = false ∧
      (sample.entry Portion.b.stopEntry).live = none ∧
      (findStop sampleStops 1).any (stopNoticeBegins announced .b .nextStop) = false ∧
      (announced.entry Portion.b.stopEntry).live.isSome = true := by decide +kernel

theorem test_stop_notice_is_freed :
    (match exec .depart (ask 15 [b 1 1] announced) with
      | .next t => t.entry 22 == ⟨5, none⟩ && (t.listsOf 15).pending == [.pull 22] && t.notice.gen == 1
      | _ => false) = true := by decide +kernel

theorem test_meets_ApproachAndDepartMoveAPortionOn :
    (offered .approach 12 [b 1 1] (withPhase .b .enRoute 250 sample) ∧
      ((withPhase .b .enRoute 250 sample).portion .b).phase = some .enRoute) ∧
    (∀ s ∈ [sample, withPhase .b .doorsReleased 1 sample],
      offered .depart 15 [b 1 1] s ∧ (s.portion .b).current = some 1 ∧ nextStop s.route.stops .b 1 = some 250) := by
  decide +kernel

theorem test_meets_ReleaseDoorsActsByPhase :
    (∀ phase ∈ [Phase.noRoute, .atPlatform, .doorsReleased, .enRoute, .approaching, .terminated],
      ∀ side ∈ [0, 1, 2], offered .releaseDoors 14 [b 1 0, b 2 side] (withPhase .a phase 1 sample) ∧
        (Side.ofCode side).isSome = true ∧ ((withPhase .a phase 1 sample).portion .a).state = .attached) := by
  decide +kernel

/-- R47: a release on the side that stop 1 has not is recorded, one on its own side is not. -/
theorem test_releaseDoors_side :
    (match exec .releaseDoors (ask 14 [b 1 0, b 2 1] sample), exec .releaseDoors (ask 14 [b 1 0, b 2 0] sample) with
      | .next t, .next u => t.crew.attention == [.started, .doorSideMismatch .a] && u.crew.attention == [.started] &&
          (t.portion .a).phase == some .doorsReleased
      | _, _ => false) = true := by decide +kernel

def labelledBooking : List RawField := [b 1 16, b 2 1, b 3 1, b 4 250, q 5 0xFFFFFFFF, w 6 2, b 7 1]
def plainBooking : List RawField := [b 1 1, b 2 1, b 3 1, b 4 250, b 7 0]

theorem test_meets_BookWritesAReservation :
    (∀ fs ∈ [labelledBooking, plainBooking], offered .book 16 fs sample ∧
      (readBooking 1 sample fs).any (fun x => (refusal (bookingChecks sample x none)).isNone) = true) ∧
    sample.memory.free ≠ 0 ∧ within 1 65534 sample.store.handleCounter = true ∧
      nextHandle sample (heldHandles sample) = 2 := by decide +kernel

theorem test_meets_pool_premise :
    PoolLaw (ask 16 labelledBooking sample) ∧ PoolLaw (ask 22 [w 1 3, ⟨2, List.replicate 240 65⟩] sample) ∧
      PoolLaw (ask 18 [w 1 1] sample) :=
  ⟨ask_pool _ _ sample_pool, ask_pool _ _ sample_pool, ask_pool _ _ sample_pool⟩

theorem test_meets_ConfirmFollowsItsRule :
    (nextGrant (ask 17 [] sample) = some (.crew (order 17 [])) ∧ bytesOf ([] : List RawField) 1 = none) ∧
      (∀ n ∈ [0, 1, 2, 65534, 65535], offered .confirm 17 [w 1 n] sample) ∧ within 1 65534 0 = false ∧
      within 1 65534 65535 = false ∧ sample.findReservation 2 = none ∧
      (sample.findReservation 1).map (·.hold) = some .confirmed ∧
      (sample.findReservation 65534).map (·.hold) = some (.provisional 1) := by decide +kernel

theorem test_meets_CancelAndCancelCodeRetire :
    (∀ n ∈ [1, 65534], offered .cancel 18 [w 1 n] sample ∧ (sample.findReservation n).isSome = true) ∧
      (∀ n ∈ [0, 2, 65535], offered .cancel 18 [w 1 n] sample) ∧ sample.findReservation 2 = none ∧
      nextGrant (ask 18 [] sample) = some (.crew (order 18 [])) ∧
      nextGrant (ask 19 [] sample) = some (.crew (order 19 [])) ∧
      (sample.findReservation 1).bind (·.label) = some 1 ∧ (sample.findReservation 65534).bind (·.label) = none ∧
      offered .cancelCode 19 [q 1 7] sample ∧ offered .cancelCode 19 [q 1 0xFFFFFFFF] sample ∧
      (heldHandles sample).Nodup := by decide +kernel

theorem test_meets_MoveAndReplaceChangeTheRecord :
    (∀ fs ∈ [[w 1 1, b 2 16, b 3 119], [w 1 1, b 2 1, b 3 1]], offered .move 20 fs sample ∧
      (sample.findReservation 1).any (fun r => (coachNo (num fs 2)).any (fun c =>
        (refusal (moveChecks sample r c (num fs 3))).isNone)) = true) ∧
    (∀ fs ∈ [[w 1 65534, b 2 1, b 3 7, b 4 1, b 5 250, b 8 0], w 1 1 :: [b 2 1, b 3 8, b 4 1, b 5 250, w 7 1, b 8 1]],
      offered .replace 21 fs sample ∧ (readBooking 2 sample fs).any (fun x =>
        (sample.findReservation (num fs 1)).any (fun r => (refusal (bookingChecks sample x (some r))).isNone)) = true) := by
  decide +kernel

theorem test_meets_PutTextAndDropText :
    (∀ n ∈ [3, 510], ∀ length ∈ [1, 240], offered .putText 22 [w 1 n, ⟨2, List.replicate length 65⟩] sample ∧
      sample.findText n = none ∧
      (sample.settings.reservationFloor - sample.memory.reserved) + (length + 31) / 32 ≤ sample.memory.free) ∧
    (∀ n ∈ [1, 2, 511], offered .dropText 23 [w 1 n] sample) ∧
      (sample.findText 2).map (fun x => (x.retiring, x.refs)) = some (false, 0) ∧
      (sample.findText 1).map (fun x => (x.retiring, x.refs)) = some (false, 4) ∧
      (sample.findText 511).map (·.retiring) = some true := by decide +kernel

def toPortions : List RawField := [b 1 3, b 2 7, b 3 3, w 5 1, w 7 36000]
def toCoaches : List RawField := [b 1 0, b 2 0, w 4 0x8001, w 5 2, b 6 250, w 7 0]

theorem test_meets_IssueAndAmendBeginEditions_issue :
    (∀ fs ∈ [toPortions, toCoaches], offered .issue 24 fs sample ∧ issueMalformed fs = false ∧
      issueOutOfRange fs = false ∧ refusal (issueChecks sample fs) = none ∧
      (NoticeKind.general (num fs 1)).isSome = true) ∧ freeGeneral sample = some 0 := by decide +kernel

theorem test_meets_IssueAndAmendBeginEditions_amend :
    (∀ fs ∈ [[b 1 21, w 2 1], [b 1 21, w 2 2, b 3 0]], offered .amend 25 fs sample ∧ entryNo (num fs 1) = some 20 ∧
      optWithin 0 7 (optNum fs 3) = true ∧
      (num fs 2 = note.text ∨ (sample.findText (num fs 2)).any (fun x => !x.retiring) = true)) ∧
    (sample.entry 20).live = some note := by decide +kernel

theorem test_meets_WithdrawFollowsItsRule :
    (∀ n ∈ [0, 1, 21, 24, 25], offered .withdraw 26 [b 1 n] sample) ∧ entryNo 21 = some 20 ∧
      (sample.entry 20).live = some note ∧ entryNo 24 = some 23 ∧ (sample.entry 23).live = none ∧
      within 1 24 25 = false ∧ nextGrant (ask 26 [] sample) = some (.crew (order 26 [])) := by decide +kernel

theorem test_meets_LinesAreDrivenByTheRecords :
    sample.running = true ∧ State.reset.time.startUp ≠ none ∧ atn0 sample = true ∧ atn1 sample = false ∧
      answerReadyLine answering = true ∧ carrierOut sample 15 = true ∧ carrierOut State.reset 15 = false := by
  decide +kernel

theorem test_meets_SetWritesOneSetting :
    ∀ fs ∈ [[b 1 1, w 2 2048], [b 1 2, w 2 2037], [b 1 4, b 2 1], [b 1 5, b 2 1, b 3 15], [b 1 9, b 2 1, b 3 2],
        [b 1 13, w 2 18000], [b 1 16, b 2 0, b 3 15], [b 1 18, b 2 7, b 3 7], [b 1 19, b 2 1, b 3 0],
        [b 1 20, b 2 7, b 3 1], [b 1 21, b 2 255]],
      offered .set 28 fs sample ∧ setMalformed fs = false ∧ setOutOfRange fs = false := by decide +kernel

theorem test_meets_AcknowledgeRemovesPairs :
    ∀ fs ∈ [[], [⟨1, [0, 0, 0, 11, 0, 15, 13, 1, 0]⟩]],
      offered .acknowledge 29 fs sample ∧ ackMalformed fs = false ∧
        (ackList fs).all (fun i => !i.outOfRange) = true := by decide +kernel

/-- The sample in a mode. -/
def inMode (mode : Mode) : State := { sample with time.mode := mode }

theorem test_meets_StablingSavesAndRestoresLevels :
    (offered .enterStabled 30 [] sample ∧ sample.time.mode = .service ∧ (sample.port 0).state = .bound) ∧
      offered .enterStabled 30 [] { State.reset with time.startUp := none } ∧
      (∀ p, (State.reset.port p).state ≠ .bound) ∧
      (∀ mode ∈ [Mode.stabling, .stabled], offered .leaveStabled 31 [] (inMode mode) ∧
        offered .enterStabled 30 [] (inMode mode)) ∧
      offered .leaveStabled 31 [] sample := by decide +kernel

theorem test_meets_JourneyClearEmptiesTheJourney :
    offered .journeyClear 32 [] sample ∧ sample.detachingPortion = none := by decide +kernel

theorem test_meets_JourneyClear_detaching :
    offered .journeyClear 32 [] detaching ∧ detaching.detachingPortion = some .a ∧ (heldHandles detaching).Nodup := by
  decide +kernel

/-! ## Lookups: READ orders have their locator in field 1, queries in field 2 -/

theorem asks_crew {s : State} {fs : List RawField} (h : nextGrant s = some (.crew (order 27 fs))) :
    asks s .crew 15 fs := ⟨_, ⟨h, rfl⟩, rfl, rfl⟩

/-- The locators of the crew port that return one record, with the last value that each parameter admits. -/
def singleReads : List (Locator × List RawField) :=
  [(.reservation, [b 1 11, q 3 0, w 4 65534]), (.coach, [b 1 13, q 3 0x7FF, b 4 16]), (.coach, [b 1 13, q 3 0, b 4 15]),
    (.port, [b 1 14, q 3 0, b 4 15]), (.text, [b 1 15, q 3 0, w 4 511]), (.notice, [b 1 16, q 3 0, b 4 24]),
    (.pool, [b 1 17, q 3 1]), (.identity, [b 1 20, q 3 0])]

theorem test_meets_SingleRecordLookupsReadTheRecord :
    (∀ x ∈ singleReads, nextGrant (ask 27 x.2 sample) = some (.crew (order 27 x.2)) ∧ wellAsked .crew x.1 x.2) ∧
      (sample.findReservation 65534).isSome = true ∧ coachNo 16 = some 15 ∧ (sample.coach 15).isSome = true ∧
      coachNo 15 = some 14 ∧ sample.coach 14 = none ∧ portNo 15 = some 15 ∧ (sample.findText 511).isSome = true ∧
      entryNo 24 = some 23 := by decide +kernel

/-- The walks of the crew port with the walk that each begins. -/
def crewWalks : List (Locator × List RawField × Walk) :=
  [(.seat, [b 1 1, q 3 0, b 4 120, b 5 16], .seat 15 120), (.routeWindow, [b 1 6, b 2 1, q 3 0, b 4 0xF8, b 5 48], .routeWindow .b (-8) 48),
    (.formation, [b 1 8, q 3 0], .formation), (.booking, [b 1 12, q 3 0, q 4 7], .booking 7),
    (.lines, [b 1 18, q 3 0], .lines), (.settings, [b 1 19, q 3 0], .settings)]

theorem test_meets_WalksReturnItemsUpToTheLimit_crew :
    (∀ x ∈ crewWalks, nextGrant (ask 27 x.2.1 sample) = some (.crew (order 27 x.2.1)) ∧ wellAsked .crew x.1 x.2.1 ∧
      walkAsked .crew x.1 x.2.1 (ask 27 x.2.1 sample) = some x.2.2) ∧
    (∀ x ∈ crewWalks.take 5, (walkItems .crew x.2.2 0 sample).length ≤ answerLimit .crew sample) ∧
      (walkItems .crew .settings 0 sample).drop (answerLimit .crew sample) ≠ [] := by decide +kernel

def noticesQuery : List RawField := [b 1 7, b 2 7, q 4 0]

theorem test_meets_WalksReturnItemsUpToTheLimit_coach :
    asks (asking 15 noticesQuery sample) (.coach 15 15) 7 noticesQuery ∧
      wellAsked (.coach 15 15) .notices noticesQuery ∧
      walkAsked (.coach 15 15) .notices noticesQuery (asking 15 noticesQuery sample) = some .notices := by
  unfold asks; decide +kernel

/-- The sample with a continuation at the crew port. -/
def continuing (w : Walk) (key : Nat) (gens : List Nat) : State :=
  { ask 27 [b 1 10] sample with crew.continuation := some ⟨w, 0, key, gens⟩ }

theorem test_meets_ContinueResumesTheWalk :
    nextGrant (ask 27 [b 1 10] sample) = some (.crew (order 27 [b 1 10])) ∧ wellAsked .crew .resume [b 1 10] ∧
      heldContinuation .crew sample = none ∧
      nextGrant (continuing .formation 1 [1]) = some (.crew (order 27 [b 1 10])) ∧
      [1] ≠ walkGenerations .formation sample ∧
      nextGrant (continuing (.booking 7) 1 (List.replicate 16 1)) = some (.crew (order 27 [b 1 10])) ∧
      List.replicate 16 1 ≠ walkGenerations (.booking 7) sample ∧ walkGeneration (.booking 7) sample = 0 ∧
      [65535] = walkGenerations .formation sample ∧
      [] = walkGenerations .settings sample ∧
      ((walkItems .crew .settings 0 sample).filter (fun x => 1 ≤ x.1)).drop (answerLimit .crew sample) ≠ [] ∧
      ((walkItems .crew .formation 0 sample).filter (fun x => 1 ≤ x.1)).length = 1 := by decide +kernel

theorem test_meets_StopLookupsFindAStop :
    (∀ fs ∈ [[b 1 4, b 2 0, q 3 0, b 4 0], [b 1 4, b 2 0, q 3 0, b 4 2]],
      nextGrant (ask 27 fs sample) = some (.crew (order 27 fs)) ∧ wellAsked .crew .stopRel fs ∧
        livePortion .crew fs sample = some .a) ∧
    originOf sample .a = 0 ∧ offsetOf 2 = 2 ∧ ((servedSequence sampleStops .a)[2]?).isSome = true ∧
    (∀ fs ∈ [[b 1 5, b 2 1, q 3 0, b 4 250]],
      nextGrant (ask 27 fs sample) = some (.crew (order 27 fs)) ∧ wellAsked .crew .stopAt fs ∧
        livePortion .crew fs sample = some .b ∧ placeOf (servedSequence sampleStops .b) 250 = some 2) := by
  decide +kernel

def nextQuery : List RawField := [b 1 7, b 2 2, q 4 0]
def cursorQuery : List RawField := [b 1 7, b 2 3, b 5 120]
def selfQuery : List RawField := [b 1 7, b 2 9, q 4 0]

theorem test_meets_SeatNextSeatCursorAndSelf :
    (∀ x ∈ [(Locator.seatNext, nextQuery), (.seatCursor, cursorQuery), (.self, selfQuery)],
      grantedQuery (asking 15 x.2 sample) 15 15 ⟨7, x.2⟩ ∧ wellAsked (.coach 15 15) x.1 x.2) ∧
    (sample.coach 15).isSome = true := by decide +kernel

/-- R134: a run that starts beyond the last seat starts at 1, one that reaches the end wraps. -/
theorem test_seatRun :
    seatRun 8 8 16 = ⟨8, 1, true, 1⟩ ∧ seatRun 9 8 4 = ⟨1, 4, true, 5⟩ ∧ seatRun 1 8 4 = ⟨1, 4, false, 5⟩ ∧
      seatRun 1 0 4 = ⟨1, 0, true, 1⟩ := by decide

/-- The sample with coach 16 DARK. -/
def darkened : State := sample.updCoach 15 (fun k => { k with level := .dark })

theorem test_meets_RefusedLookupsChangeNoRecord :
    (nextGrant (ask 27 [b 1 21] sample) = some (.crew (order 27 [b 1 21])) ∧ locatorOf 1 [b 1 21] = none ∧
      locatorOf 1 [] = none ∧ locatorOf 1 [b 1 0] = none) ∧
    (locatorOf 1 [b 1 9] = some .self ∧ requestMalformed .crew .self [b 1 9] = true ∧
      requestMalformed .crew .resume [b 1 10, b 9 0] = true) ∧
    (let fs := [b 1 5, b 2 1, q 3 0, b 4 251];
      requestMalformed .crew .stopAt fs = false ∧ requestOutOfRange .crew .stopAt fs = true) ∧
    (nextGrant (asking 15 selfQuery darkened) = some (.coach 15 ⟨7, selfQuery⟩) ∧
      ((asking 15 selfQuery darkened).port 15).bound = some 15 ∧ isDark (asking 15 selfQuery darkened) 15 = true ∧
      darkServed (asking 15 selfQuery darkened) 15 (locatorOf 2 selfQuery) = false) := by decide +kernel

/-! ## Coach links -/

/-- The sample with port 3 in a state, its carrier as given and a wait running. -/
def waiting (state : PortState) (carrier : Bool) : State :=
  sample.updPort 3 (fun r => { r with state := state, carrier := carrier, wait := some 200 })

theorem test_meets_TheCarrierMakesAndEndsALink :
    (sample.running = true ∧ (sample.port 1).carrier ≠ true ∧ (sample.port 15).carrier ≠ false) ∧
      (((waiting .down true).port 3).state = .down ∧ ((waiting .down true).port 3).wait = some 200) ∧
      (((waiting .unbound false).port 3).bound = none ∧ ((waiting .unbound false).port 3).wait = some 200) ∧
      (let s := sample.updPort 15 (fun r => { r with carrier := false, wait := some 200 });
        s.running = true ∧ (s.port 15).state = .bound ∧ (s.port 15).bound = some 15 ∧ s.detachingPortion = none) := by
  decide +kernel

/-- The sample with port 15 as a CDC finds it before its GREET. -/
def ungreeted : State := sample.updPort 15 (fun r => { r with state := .greeting, bound := none, greeted := none })

theorem ungreeted_binding : BindingLaw ungreeted := ⟨by decide +kernel, by decide +kernel, by decide +kernel⟩

theorem test_meets_GreetJudgesTheLabel :
    (hears greeted 1 = true ∧ greetShape [67, 67, 67] 32 255 = true ∧ greeted.namedBy 1 = none ∧
      greeted.detachingPortion = none) ∧
    (∀ s ∈ [sample, ungreeted], hears s 15 = true ∧ s.namedBy 15 = some 15 ∧
      s.coach 15 = some (coachAt [66] 15 .b 16 120) ∧ s.detachingPortion = none) ∧
    (coachAt [66] 15 .b 16 120).label ≠ [65] ∧ (ungreeted.port 15).state ≠ .bound ∧
      (sample.port 15).state = .bound := by decide +kernel

/-- A port whose queries in flight carry tags. -/
def inFlight (waits answers : List Nat) : State :=
  sample.updPort 15 (fun r => { r with
    waiting := waits.map (fun t => ⟨t, []⟩), outbox := answers.map (fun t => ⟨t, okWith [], false⟩) })

/-- Every port with two queries waiting, but for the last. -/
def crowded : State :=
  { sample with ports := tabulate (fun p => { boundTo p [65] with
      waiting := if p.val = 15 then [⟨0, []⟩] else [⟨0, []⟩, ⟨1, []⟩] }), settings.queryQuota := Vector.replicate 16 4 }

theorem test_meets_QueryTakesASlotOrIsRefused :
    queryShape [b 1 7] = true ∧ queryTag [b 1 7] = some 7 ∧ hears greeted 1 = true ∧ (greeted.port 1).state ≠ .bound ∧
      ((inFlight [] [7]).port 15).tagInFlight 7 = true ∧
      (sample.settings.queryQuota[(15 : Fin 16)] ≤ ((inFlight [0] [1]).port 15).inFlight ∧
        ((inFlight [0] [1]).port 15).tagInFlight 7 = false) ∧
      (sample.port 15).tagInFlight 7 = false ∧ (sample.port 15).inFlight < sample.settings.queryQuota[(15 : Fin 16)] ∧
      slotsInUse sample < 32 ∧ slotsInUse crowded = 31 ∧ (crowded.port 15).inFlight < 4 ∧
      slotsInUse (crowded.updPort 15 (fun r => { r with waiting := [⟨0, []⟩, ⟨1, []⟩] })) = 32 := by decide +kernel

/-- The sample with the notice in a state. -/
def noteIn (state : NoticeState) (receipted : CoachSet) : State :=
  sample.updEntry 20 (fun _ => ⟨2, some { note with state := state, receipted := receipted }⟩)

theorem test_meets_ReceiptsAreRecorded_notice :
    hears sample 15 = true ∧ (sample.port 15).bound = some 15 ∧ within 1 65535 note.edition = true ∧
      note.delivery[(15 : Fin 16)] = true ∧ note.delivery.subset (note.receipted.insert 15) = false ∧
      note.delivery.subset ((CoachSet.none.insert 0).insert 15) = true ∧
      ((noteIn .partly CoachSet.none).entry 20).live.map (·.state) = some .partly ∧
      inTarget sample note.target 15 = true := by decide +kernel

/-- The sample in STABLING with LEVEL receipts awaited on ports. -/
def awaiting (zero fifteen : Bool) : State :=
  ((inMode .stabling).updPort 0 (fun r => { r with levelAwaited := zero })).updPort 15
    (fun r => { r with levelAwaited := fifteen })

/-- The sample with portion A DETACHING and its coach's receipt awaited. -/
def leaving : State :=
  detaching.updPort 0 (fun r => { r with releaseAwaited := true })

/-- `leaving` with coach 16 in portion A as well, its receipt awaited. -/
def leavingTwo : State :=
  (leaving.updCoach 15 (fun k => { k with portion := .a })).updPort 15 (fun r => { r with releaseAwaited := true })

theorem test_meets_ReceiptsAreRecorded_control :
    (hears (awaiting true true) 15 = true ∧ ((awaiting true true).port 15).state = .bound ∧
      ((awaiting true true).port 0).levelAwaited = true) ∧
    (∀ r, r ≠ 15 → ((awaiting false true).port r).state = .bound → ((awaiting false true).port r).levelAwaited = false) ∧
    (∀ s ∈ [leaving, leavingTwo], hears s 0 = true ∧ (s.port 0).releaseAwaited = true ∧ (s.port 0).bound = some 0 ∧
      s.portionOf 0 = some .a ∧ s.detachingPortion = some .a ∧ (heldHandles s).Nodup) ∧
    (leavingTwo.portionOf 15 = some .a ∧ leavingTwo.boundPort 15 = some 15 ∧ (leavingTwo.port 15).releaseAwaited = true) ∧
    (∀ k r, leaving.portionOf k = some .a → leaving.boundPort k = some r → r ≠ 0 →
      (leaving.port r).releaseAwaited = false) := by decide +kernel

/-- The sample in a mode with coach 16 DARK and its wake flag as given. -/
def asleep (mode : Mode) (allowed : Bool) : State :=
  (inMode mode).updCoach 15 (fun k => { k with level := .dark, savedLevel := some .dim, wakeAllowed := allowed })

theorem test_meets_WakeFollowsItsTable :
    (hears greeted 1 = true ∧ (greeted.port 1).bound = none) ∧
    (hears sample 15 = true ∧ sample.boundPort 15 = some 15 ∧ (sample.coach 15).any (·.level != .dark) = true) ∧
    (∀ mode ∈ [Mode.service, .stabling, .stabled], ∀ allowed ∈ [true, false],
      hears (asleep mode allowed) 15 = true ∧ (asleep mode allowed).boundPort 15 = some 15 ∧
      ((asleep mode allowed).coach 15).any (fun k => k.level == .dark && k.wakeAllowed == allowed) = true) := by
  decide +kernel

theorem test_meets_DroppedFramesAreCounted :
    receiving sample 15 = true ∧ breaksAt sample 15 [0xC5] [] = [] ∧
      receive [] 0 [0xC5, 0x05, 0, 0] = [.dropped] ∧ receive [1] 0 [0xC5, 0xC5] = [.dropped] ∧
      receive [1] 0 [0xC5] = [.dropped] ∧ receive [] 0 [0x00, 0xC5, 0x04, 0, 0] = [] ∧ receive [] 0 [] = [] ∧
      receive [] 0 CoachFrame.wake.bytes = [.passed .wake 5] ∧
      receive [] 0 ([0xC5, 0x05, 0, 0] ++ CoachFrame.levelReceipt.bytes) =
        List.replicate 1 .dropped ++ [.passed .levelReceipt 8] ∧
      (sample.updPort 15 (fun r => { r with carrier := false })).running = true ∧
      (∀ f ∈ [CoachFrame.greet [] 1 1, .greet [65] 1 256, .query [], .query [b 1 8], .noticeReceipt 25 1,
          .noticeReceipt 1 65536],
        (f.command 15).wellFormed = false ∧ f.carried = true ∧ ∀ x ∈ f.bytes.tail, x ≠ 0xC5) ∧
      (CoachFrame.greet (List.replicate 256 65) 1 1).carried = false := by decide +kernel

/-- The largest body that a QUERY carries, and one with a byte more, which frames can carry but the port drops. -/
theorem test_query_body :
    let rest := (⟨6, List.replicate 205 0⟩ : RawField) :: List.replicate 47 ⟨5, List.replicate 255 0⟩
    queryShape (b 1 7 :: rest) = false ∧ (CoachFrame.query (b 1 7 :: rest)).carried = true ∧
      bodyLength (b 1 7 :: rest) = 12289 ∧
      queryShape (b 1 7 :: ⟨6, List.replicate 204 0⟩ :: List.replicate 47 ⟨5, List.replicate 255 0⟩) = true := by
  decide +kernel

/-- R200: behind a frame whose check fails the hunt goes on with the byte after its sync byte; a frame that arrives while
the carrier is away, within the loss grace, is counted. -/
theorem test_frames_hunted :
    receive [] 0 ([0xC5, 0x04, 0, 0] ++ CoachFrame.wake.bytes ++ CoachFrame.releaseReceipt.bytes) =
        [.dropped, .passed .wake 5, .passed .releaseReceipt 8] ∧
      (match exec (.wake 15) (sample.updPort 15 (fun r => { r with carrier := false, wait := some 200 })),
          exec (.frameError 15 CoachFrame.wake.bytes []) (sample.updPort 15 (fun r => { r with carrier := false })) with
        | .next t, .next u => (t.port 15).frameErrors == 1 && (u.port 15).frameErrors == 1
        | _, _ => false) = true := by decide +kernel

/-- R200: a QUERY with a tag above 7 is dropped, and the LEVEL receipt that its bytes hold is found behind its sync byte. -/
theorem test_dropped_query_hunted :
    (match exec (.query 15 [b 1 8, ⟨5, CoachFrame.levelReceipt.bytes⟩]) (awaiting false true) with
      | .next t => (t.port 15).frameErrors == 1 && !(t.port 15).levelAwaited && t.time.mode == .stabled
      | _ => false) = true := by decide +kernel

/-- The sample with control messages and an answer pending on port 15. -/
def sending (welcome level release : Bool) : State :=
  sample.updPort 15 (fun r => { r with
    welcome := welcome, level := level, release := release, outbox := [⟨7, refuse .busy, true⟩] })

theorem test_meets_ControlMessagesAndAnswersAreSent :
    ∀ s ∈ [sending true true true, sending false true true, sending false false true, sending false false false],
      receiving s 15 = true ∧ (s.port 15).state = .bound ∧ (s.port 15).bound = some 15 ∧
        (s.coach 15).isSome = true ∧ (s.port 15).outbox ≠ [] := by decide +kernel

/-- The sample with a PULL pending before the PUSH of coach 1. -/
def pulling : State := sample.updLists 0 (fun l => { l with pending := .pull 23 :: l.pending })

theorem test_meets_NoticesAndRefreshAreSent :
    (receiving sample 0 = true ∧ (sample.port 0).state = .bound ∧ (sample.port 0).bound = some 0 ∧
      (sample.port 0).welcome = false ∧ (sample.port 0).outbox = []) ∧
    pullOffered pulling 0 = some 23 ∧ (pullOffered sample 0 = none ∧ pushOffered sample 0 = some (20, note)) ∧
    (let s := sample.updPort 15 (fun r => { r with refresh := ⟨true, false, true⟩ });
      pullOffered s 15 = none ∧ pushOffered s 15 = none ∧ sendable s 15 15 ≠ .clear) := by decide +kernel

/-! ## Timers, lines, start-up -/

/-- The sample with no timer at its last tick. -/
def unhurried : State :=
  { sample with
    store.reservations := sample.store.reservations.map (fun r => { r with hold := .provisional 2 })
    notice.entries := update sample.notice.entries 20 (fun _ =>
      ⟨2, some { note with lifetime := some 2, state := .delivering 2 }⟩) }

theorem test_meets_ATickAgesEveryTimer :
    unhurried.running = true ∧ State.reset.running = false ∧
      unhurried.store.reservations.all (fun r => !holdDue r.coach r) = true ∧
      (∀ e, (unhurried.entry e).live.all (fun l => !l.lifetime.any (· ≤ 1) && !l.state.due) = true) ∧
      (∀ p ∈ Portion.all, (unhurried.portion p).deadline.all (1 < ·) = true) ∧
      unhurried.time.stablingDeadline.all (1 < ·) = true := by decide +kernel

/-- Timers of every owner run out in the sample and in `detaching`. -/
theorem test_meets_ATick_timers_run_out :
    sample.detachingPortion = none ∧ (heldHandles sample).Nodup ∧ sample.store.reservations.any (holdDue 15) = true ∧
      sample.store.reservations.any (holdDue 0) = false ∧
      ((sample.entry 20).live.any (fun l => l.lifetime.any (· ≤ 1)) = true) ∧
      (let s := sample.updEntry 20 (fun _ => ⟨2, some { note with lifetime := none }⟩);
        (s.entry 20).live.any (fun l => !l.lifetime.any (· ≤ 1) && l.state.due) = true) ∧
      (let s := { inMode .stabling with time.stablingDeadline := some 1 };
        s.running = true ∧ s.time.stablingDeadline.any (· ≤ 1) = true) ∧
      detaching.running = true ∧ detaching.detachingPortion = some .a ∧
      (detaching.portion .a).deadline = some 1 ∧ (heldHandles detaching).Nodup := by decide +kernel

theorem test_meets_TimersThatRunOut :
    sample.running = true ∧ sample.store.reservations.any (holdDue 15) = true ∧ (heldHandles sample).Nodup ∧
      (sample.entry 20).live = some note ∧ note.lifetime = some 1 ∧ note.state = .delivering 1 ∧
      (sample.listsOf 0).inFlight = [⟨20, 1, 1⟩] ∧ leaving.detachingPortion = some .a ∧
      (leaving.portion .a).deadline = some 1 ∧
      (let s := { inMode .stabling with time.stablingDeadline := some 1 };
        s.running = true ∧ s.time.mode = .stabling ∧ s.time.stablingDeadline = some 1) := by decide +kernel

/-- The three ends of stabling, detaching and holds that the statement speaks of. -/
theorem test_timers_run_out :
    (match exec .detachDeadlineExpiry leaving, exec (.provisionalHoldExpiry 15) sample with
      | .next t, .next u => t.portion .a == .vacant && t.coach 0 == none && t.crew.attention == [.started, .detachForced .a] &&
          u.store.reservations.map (·.handle) == [1] && u.seatGen 15 == 1 && u.memory.free == 2037
      | _, _ => false) = true := by decide +kernel

/-- The sample with line 7 as STANDSTILL in the pattern, its filter on or off. -/
def lined (check : Fin 8) (wait : Option Nat) (input : LineLevel) : State :=
  { sample with lines := { sample.lines with
      lines := update sample.lines.lines 7 (fun _ => ⟨.standstill, .high, .low, true, input, wait⟩)
      checkTimes := Vector.replicate 2 check } }

theorem test_meets_LineInputsAreFiltered :
    (let s := lined 0 none .low;
      s.running = true ∧ s.lines.lines[(7 : Fin 8)].input ≠ .high ∧ s.lines.lines[(7 : Fin 8)].filtered ≠ .high ∧
        checkTime s 7 = 0) ∧
    checkTime (lined 7 none .low) 7 ≠ 0 ∧
    (let s := lined 7 (some 1000) .high;
      s.lines.lines[(7 : Fin 8)].input ≠ .low ∧ s.lines.lines[(7 : Fin 8)].filtered = .low ∧
        s.lines.lines[(7 : Fin 8)].wait = some 1000) := by decide +kernel

/-- The sample with hand-overs waiting. -/
def handed (h : HandOver) (s : State) : State := { s with lines.handOvers := [h] }

theorem test_meets_HandOversAreTaken :
    (∀ h ∈ [HandOver.arrive, .approach, .depart, .releaseDoors .left, .releaseDoors .right, .coupler .b true,
        .coupler .c false, .door, .stabling], (handed h sample).running = true ∧ h ∈ (handed h sample).lines.handOvers) ∧
    (sample.portion (couplerOf .b)).state = .attached ∧ (sample.portion (couplerOf .c)).state = .vacant ∧
    (handed .arrive (inMode .stabled)).running = true ∧ (handed .arrive (inMode .stabled)).time.mode = .stabled ∧
    (let s := handed (.coupler .b false) (sample.updPortion .b (fun r => { r with state := .detaching, deadline := some 1 }));
      s.running = true ∧ (s.portion (couplerOf .b)).state = .detaching ∧ (heldHandles s).Nodup) := by decide +kernel

/-- R16: the coupler of portion B opens while it detaches, and it is gone. -/
theorem test_coupler_completes :
    (match exec (.couplerEvent .b false) (handed (.coupler .b false)
        (sample.updPortion .b (fun r => { r with state := .detaching, deadline := some 1 }))) with
      | .next t => t.portion .b == .vacant && t.coach 15 == none && t.crew.attention == [.started, .detachDone .b] &&
          t.lines.handOvers == [] && t.route.gen == 1
      | _ => false) = true := by decide +kernel

/-- The sample with RESET_N held. -/
def held (startUp : StartUp) : State := { sample with time := { sample.time with resetHeld := true, startUp := some startUp } }

theorem test_meets_PowerOnAndResetRestart :
    (held .warm).time.resetHeld = true ∧ (held .warm).time.startUp ≠ some .powerOn ∧
      (held .powerOn).time.startUp = some .powerOn ∧ sample.time.resetHeld = false := by decide

/-- A start-up of a kind under way. -/
def starting (startUp : StartUp) (kind : StartKind) : State :=
  { sample with time := { sample.time with startUp := some startUp, startKind := kind } }

theorem test_meets_StartUpEnds :
    (Instr.startUpEnd [0, 2047]).wellFormed = true ∧ (Instr.startUpEnd []).wellFormed = true ∧
    (∀ x ∈ [(StartUp.powerOn, StartKind.checked), (.powerOn, .quick), (.warm, .checked)],
      (starting x.1 x.2).time.startUp = some x.1 ∧ (starting x.1 x.2).time.resetHeld = false ∧
      (starting x.1 x.2).detachingPortion = none) ∧
    (let s := { detaching with time := { detaching.time with startUp := some .warm } };
      s.time.resetHeld = false ∧ s.detachingPortion = some .a ∧ (heldHandles s).Nodup) := by decide +kernel

/-- R80: two blocks fail the test of a CHECKED start-up. -/
theorem test_startUp_excludes :
    (match exec (.startUpEnd [0, 2047]) { State.reset with time.startKind := .checked } with
      | .next t => t.memory.free == 2046 && t.memory.excludedBlocks == [0, 2047] && t.crew.attention == [.started] &&
          t.running
      | _ => false) = true := by decide +kernel

/-! ## The queue -/

theorem test_step_takes_the_front :
    (match step { sample with pending := [.tick, .doorEvent] } with
      | .next t => t.pending == [.doorEvent] && t.time.tickCount == 1
      | _ => false) = true := by decide +kernel

end Sys2Proof.Tests
end

/-! PROOFS. REMOVE_STOP (R35) and SET_DELAY (R39): what the checks of each order come to, and what its effect leaves. -/

namespace Sys2Proof.Machine

/-! ## Tables and numbers -/

@[simp] theorem Portion.mem_all (p : Portion) : p ∈ Portion.all := by
  cases p <;> decide

theorem findText_congr {s t : State} (h : t.memory = s.memory) (u : Nat) : t.findText u = s.findText u := by
  simp only [State.findText, h]

/-- Bytes that are at most one spell at most 255. -/
theorem ofBytes_le_255 {bytes : List Byte} (h : bytes.length ≤ 1) : ofBytes bytes ≤ 255 := by
  match bytes, h with
  | [], _ => simp [ofBytes]
  | [b], _ =>
    rw [ofBytes_single]
    omega

/-- A parameter of one byte spells at most 255. -/
theorem num_le_255_of_shaped {params : List Param} {fs : List RawField} {id : Nat} (h : shaped params fs = true)
    (one : ∀ p ∈ params, p.id = id → p.most ≤ 1) : num fs id ≤ 255 := by
  unfold num optNum
  cases hv : bytesOf fs id with
  | none => simp
  | some bytes =>
    obtain ⟨p, hp, hid, hlength⟩ := shaped_length h hv
    have hmost : bytes.length ≤ p.most := by
      simp only [within, Bool.and_eq_true, decide_eq_true_eq] at hlength
      exact hlength.2
    exact ofBytes_le_255 (hmost.trans (one p hp hid))

/-! ## What the effects leave -/

@[simp] theorem releaseRef_route (id : Nat) (s : State) : (releaseRef id s).route = s.route := by
  have hstops := releaseRef_changes id s .stops (by decide)
  have hgen := releaseRef_changes id s .routeGen (by decide)
  cases h : (releaseRef id s).route
  simp_all [Part.same]

@[simp] theorem releaseRef_ports (id : Nat) (s : State) : (releaseRef id s).ports = s.ports :=
  releaseRef_changes id s .ports (by decide)

/-- R28: an order whose owner advances the route generation last, on the route generation and the ports it was given. -/
theorem AsLeft.routeNews {s before t : State} (h : AsLeft (advanceRoute before) t)
    (hgen : before.route.gen = s.route.gen) (hports : before.ports = s.ports) : routeNews s t := by
  apply routeNews_of
  · rw [h.route, ← hgen]; rfl
  · rw [h.ports, ← hports]; rfl

/-! ## REMOVE_STOP -/

/-- R35: what keeps a stop in the table. -/
theorem stopInUse_iff (s : State) (stop : Nat) : stopInUse s stop = true ↔
    (∃ r ∈ s.store.reservations, r.board = stop ∨ r.alight = stop) ∨
      (∃ p, (s.portion p).current = some stop ∨ (s.portion p).lastArrived = some stop) ∨
      ∃ e l, (s.entry e).live = some l ∧ l.subject = some stop := by
  simp [stopInUse, or_assoc, Option.any_eq_true]

section
variable {fs : List RawField} {s : State} {x : Stop}

theorem carryRemoveStop_range (hs : shaped [need 1 1] fs = true) (hr : within 1 250 (num fs 1) = false) :
    carryRemoveStop fs s = (s, refuse .range) := by
  simp [carryRemoveStop, hs, hr]

theorem carryRemoveStop_unknown (hs : shaped [need 1 1] fs = true) (hr : within 1 250 (num fs 1) = true)
    (hx : findStop s.route.stops (num fs 1) = none) : carryRemoveStop fs s = (s, refuse .unknown) := by
  simp [carryRemoveStop, hs, hr, hx]

theorem carryRemoveStop_inUse (hs : shaped [need 1 1] fs = true) (hr : within 1 250 (num fs 1) = true)
    (hx : findStop s.route.stops (num fs 1) = some x) (hu : stopInUse s x.id = true) :
    carryRemoveStop fs s = (s, refuse .inUse) := by
  simp [carryRemoveStop, hs, hr, hx, judged_refused (code := .inUse), refusal, hu]

theorem carryRemoveStop_free (hs : shaped [need 1 1] fs = true) (hr : within 1 250 (num fs 1) = true)
    (hx : findStop s.route.stops (num fs 1) = some x) (hu : stopInUse s x.id = false) :
    carryRemoveStop fs s = (advanceRoute (releaseRef x.name (dropStop x.id s)), okWith []) := by
  simp [carryRemoveStop, hs, hr, hx, judged_passes, refusal, hu]

end

/-- R35: the effect of REMOVE_STOP on a stop that nothing names. -/
theorem removeStop_taken {s : State} {o : Order} {x : Stop} (ho : ordered .removeStop s o)
    (hr : within 1 250 (num o.fields 1) = true) (hx : findStop s.route.stops (num o.fields 1) = some x)
    (hu : stopInUse s x.id = false) :
    ∃ t, taken .removeStop s t [] ∧ t.route.stops = s.route.stops.filter (fun y => y.id ≠ x.id) ∧
      textReleased x.name s t ∧ routeNews s t := by
  have ⟨_, _, hs⟩ := ho
  obtain ⟨t, ht, left, -⟩ := taken_of ho (carryRemoveStop_free (s := grantCrew s) hs hr hx hu)
  refine ⟨t, ht, ?stops, fun u => ?name, left.routeNews (by rw [releaseRef_route]; rfl) (by rw [releaseRef_ports]; rfl)⟩
  case stops =>
    calc t.route.stops = (releaseRef x.name (dropStop x.id (grantCrew s))).route.stops := by rw [left.route]; rfl
      _ = s.route.stops.filter (fun y => y.id ≠ x.id) := by rw [releaseRef_route]; rfl
  case name =>
    calc t.findText u = (releaseRef x.name (dropStop x.id (grantCrew s))).findText u := findText_congr left.memory u
      _ = _ := textReleased_releaseRef x.name (dropStop x.id (grantCrew s)) u

/-- Settles O23, by the checks of R35 in their order. -/
theorem removeStopFollowsItsRule : Obligations.RemoveStopFollowsItsRule := by
  intro s o ho
  have ⟨_, _, hs⟩ := ho
  refine ⟨fun hr => ?range, fun hr hx => ?unknown,
    fun x hr hx => ⟨fun named => ?inUse, fun hstore hportions hlive => ?ok⟩⟩
  case range => exact answeredOnly_of ho (carryRemoveStop_range hs hr)
  case unknown => exact answeredOnly_of ho (carryRemoveStop_unknown hs hr hx)
  case inUse =>
    have hu : stopInUse s x.id = true := (stopInUse_iff s x.id).2 named
    exact answeredOnly_of ho (carryRemoveStop_inUse (s := grantCrew s) hs hr hx hu)
  case ok =>
    refine removeStop_taken ho hr hx (Bool.eq_false_iff.2 fun hu => ?_)
    rcases (stopInUse_iff s x.id).1 hu with ⟨r, hmem, hstop⟩ | ⟨p, hstop⟩ | ⟨e, l, hl, hstop⟩
    · exact hstop.elim (hstore r hmem).1 (hstore r hmem).2
    · exact hstop.elim (hportions p).1 (hportions p).2
    · exact hlive e l hl hstop

/-! ## SET_DELAY -/

section
variable {fs : List RawField} {s : State} {x : Stop}

/-- A delay is one byte, so R39 refuses no delay as out of range. -/
theorem setDelay_delay_within (hs : shaped [need 1 1, need 2 1] fs = true) : within 0 255 (num fs 2) = true := by
  have : num fs 2 ≤ 255 := num_le_255_of_shaped hs (by simp [need])
  simpa [within] using this

theorem carrySetDelay_range (hs : shaped [need 1 1, need 2 1] fs = true) (hr : within 1 250 (num fs 1) = false) :
    carrySetDelay fs s = (s, refuse .range) := by
  simp [carrySetDelay, hs, hr]

theorem carrySetDelay_unknown (hs : shaped [need 1 1, need 2 1] fs = true) (hr : within 1 250 (num fs 1) = true)
    (hx : findStop s.route.stops (num fs 1) = none) : carrySetDelay fs s = (s, refuse .unknown) := by
  simp [carrySetDelay, hs, hr, setDelay_delay_within hs, hx]

theorem carrySetDelay_found (hs : shaped [need 1 1, need 2 1] fs = true) (hr : within 1 250 (num fs 1) = true)
    (hx : findStop s.route.stops (num fs 1) = some x) :
    carrySetDelay fs s = (advanceRoute (writeDelay x.id (num fs 2) s), okWith []) := by
  simp [carrySetDelay, hs, hr, setDelay_delay_within hs, hx]

end

/-- Settles O25, by the checks of R39 in their order. -/
theorem setDelayFollowsItsRule : Obligations.SetDelayFollowsItsRule := by
  intro s o ho
  have ⟨_, _, hs⟩ := ho
  refine ⟨fun hr => ?range, fun hr hx => ?unknown, fun x hr hx => ?ok⟩
  case range => exact answeredOnly_of ho (carrySetDelay_range hs hr)
  case unknown => exact answeredOnly_of ho (carrySetDelay_unknown hs hr hx)
  case ok =>
    obtain ⟨t, ht, left, -⟩ := taken_of ho (carrySetDelay_found hs hr hx)
    exact ⟨t, ht, setDelay_delay_within hs, left.routeNews rfl rfl, by rw [left.route]; rfl⟩

end Sys2Proof.Machine

/-! PROOFS. CONFIRM (R63), CANCEL (R66) and CANCEL_CODE (R67): the checks of a handle, what retiring a reservation leaves,
and the advance of seat generations. -/

namespace Sys2Proof.Machine

/-! ## Orders that lack a field -/

/-- R198: fields without a required one have not the shape. -/
theorem shaped_missing {params : List Param} {fs : List RawField} {p : Param} (hp : p ∈ params)
    (required : p.required = true) (absent : bytesOf fs p.id = none) : shaped params fs = false := by
  have none_has : fs.any (fun f => f.id == p.id) = false := by
    simpa [bytesOf] using absent
  have fails : params.all (fun p => !p.required || fs.any (fun f => f.id == p.id)) = false :=
    List.all_eq_false.2 ⟨p, hp, by simp [required, none_has]⟩
  simp only [shaped, fails, Bool.and_false]

/-- An order whose owner changes nothing is answered and no more, whether or not its parameters have its shape. -/
theorem answeredOnly_of_granted {i : Instr} {s : State} {o : Order} {r : Reply} (g : nextGrant s = some (.crew o))
    (hk : orderKind i = some o.kind) (h : carryOf i o.fields (grantCrew s) = (grantCrew s, r)) :
    ∃ t, answeredOnly i s t r :=
  ⟨_, exec_order i s o g hk, carryOrder_answers h (changes_refl _ _) (by simp) (by simp) (by simp)⟩

/-- R198: an order without a field that it needs is answered MALFORMED. -/
theorem answeredOnly_missing {i : Instr} {s : State} {o : Order} {id width : Nat} (g : nextGrant s = some (.crew o))
    (hk : orderKind i = some o.kind) (hp : need id width ∈ orderShape i) (absent : bytesOf o.fields id = none)
    (malformed : shaped (orderShape i) o.fields = false →
      carryOf i o.fields (grantCrew s) = (grantCrew s, refuse .malformed)) :
    ∃ t, answeredOnly i s t (refuse .malformed) :=
  answeredOnly_of_granted g hk (malformed (shaped_missing hp rfl absent))

/-! ## Handles (R63, R66) -/

section
variable {fs : List RawField} {s : State} {r : Reservation}

theorem readHandle_range (hr : within 1 65534 (num fs 1) = false) : readHandle s fs = .error .range := by
  simp [readHandle, hr]

theorem readHandle_unknown (hr : within 1 65534 (num fs 1) = true) (hx : s.findReservation (num fs 1) = none) :
    readHandle s fs = .error .unknown := by
  simp [readHandle, hr, hx]

theorem readHandle_found (hr : within 1 65534 (num fs 1) = true) (hx : s.findReservation (num fs 1) = some r) :
    readHandle s fs = .ok r := by
  simp [readHandle, hr, hx]

end

theorem findReservation_mem {s : State} {handle : Nat} {r : Reservation} (h : s.findReservation handle = some r) :
    r ∈ s.store.reservations :=
  List.mem_of_find?_eq_some h

/-! ## Seat generations (R57) -/

theorem boundIn_append (q : Port) (as bs : List (Fin 16)) :
    q.boundIn (as ++ bs) = (q.boundIn as || q.boundIn bs) := by
  simp [Port.boundIn, Bool.and_or_distrib_left]

/-- R57: advances for two lists of coaches that share none are one advance for both lists. -/
theorem seatNews.append {as bs : List (Fin 16)} {s t u : State} (h : seatNews as s t) (k : seatNews bs t u)
    (apart : as.Disjoint bs) : seatNews (as ++ bs) s u := by
  obtain ⟨hgen, hport⟩ := h
  obtain ⟨kgen, kport⟩ := k
  refine ⟨fun c => ?gens, fun q => ?ports⟩
  case gens =>
    rw [kgen, hgen]
    by_cases ha : c ∈ as
    · have hb : c ∉ bs := fun hb => apart ha hb
      simp [ha, hb]
    · simp [ha]
  case ports =>
    rw [kport, hport, boundIn_append]
    cases (s.port q).boundIn as with
    | false => simp only [Bool.false_eq_true, if_false, Bool.false_or]
    | true =>
      simp only [if_true, Bool.true_or]
      split <;> rfl

theorem seatNews_nil (s : State) : seatNews [] s s := by
  simp [seatNews, Port.boundIn]

theorem seatNews_advanceSeats {cs : List (Fin 16)} (once : cs.Nodup) (s : State) :
    seatNews cs s (advanceSeats cs s) := by
  induction cs generalizing s with
  | nil => exact seatNews_nil s
  | cons c cs ih =>
    obtain ⟨hc, hcs⟩ := List.nodup_cons.1 once
    have first : seatNews [c] s (advanceSeat c s) := seatNews_of rfl rfl
    exact first.append (ih hcs (advanceSeat c s)) (by simpa using hc)

/-- R57: an order whose owner advances some seat generations last, on the seat generations and ports it was given. -/
theorem AsLeft.seatNews {s before t : State} {cs : List (Fin 16)} (h : AsLeft (advanceSeats cs before) t)
    (once : cs.Nodup) (hgens : before.store.seatGens = s.store.seatGens) (hports : before.ports = s.ports) :
    seatNews cs s t := by
  obtain ⟨gens, ports⟩ := seatNews_advanceSeats once before
  refine ⟨fun c => ?_, fun q => ?_⟩
  · have hs : before.seatGen c = s.seatGen c := by simp only [State.seatGen, hgens]
    rw [seatGen_congr h.store, gens, hs]
  · rw [port_congr h.ports, ports, port_congr hports]

/-! ## CONFIRM -/

/-- R63: the hold of the reservation with a handle becomes CONFIRMED. -/
def confirmHold (handle : Nat) (s : State) : State :=
  { s with store.reservations :=
      s.store.reservations.map (fun q => if q.handle = handle then { q with hold := .confirmed } else q) }

section
variable {fs : List RawField} {s : State} {r : Reservation}

theorem carryConfirm_malformed (hs : shaped [need 1 2] fs = false) : carryConfirm fs s = (s, refuse .malformed) := by
  simp [carryConfirm, hs]

theorem carryConfirm_refused {code : StatusCode} (hs : shaped [need 1 2] fs = true)
    (hx : readHandle s fs = .error code) : carryConfirm fs s = (s, refuse code) := by
  simp [carryConfirm, hs, hx]

theorem carryConfirm_confirmed (hs : shaped [need 1 2] fs = true) (hx : readHandle s fs = .ok r)
    (hh : r.hold = .confirmed) : carryConfirm fs s = (s, okWith []) := by
  simp [carryConfirm, hs, hx, hh]

theorem carryConfirm_provisional {ticks : Nat} (hs : shaped [need 1 2] fs = true) (hx : readHandle s fs = .ok r)
    (hh : r.hold = .provisional ticks) :
    carryConfirm fs s = (advanceSeats [r.coach] (confirmHold r.handle s), okWith []) := by
  simp [carryConfirm, hs, hx, hh, advanceSeats, confirmHold]

end

/-- Settles O30, by the checks of R63 in their order and then by the hold. -/
theorem confirmFollowsItsRule : Obligations.ConfirmFollowsItsRule := by
  refine ⟨fun s o g hk absent => ?malformed, fun s o ho => ?shaped⟩
  case malformed =>
    exact answeredOnly_missing (width := 2) g (by rw [hk]; rfl) (by simp [orderShape]) absent carryConfirm_malformed
  case shaped =>
    have ⟨_, _, hs⟩ := ho
    refine ⟨fun hr => ?range, fun hr hx => ?unknown, fun r hr hx => ⟨fun hh => ?confirmed, fun ticks hh => ?held⟩⟩
    case range => exact answeredOnly_of ho (carryConfirm_refused hs (readHandle_range hr))
    case unknown => exact answeredOnly_of ho (carryConfirm_refused hs (readHandle_unknown hr hx))
    case confirmed => exact answeredOnly_of ho (carryConfirm_confirmed hs (readHandle_found hr hx) hh)
    case held =>
      obtain ⟨t, ht, left, -⟩ := taken_of ho (carryConfirm_provisional hs (readHandle_found hr hx) hh)
      exact ⟨t, ht, left.seatNews (by simp) rfl rfl, by rw [left.store]; rfl⟩

/-! ## Record memory and text store when a reservation is retired (R56, R81, R88) -/

theorem returnBlock_memory (s : State) : (returnBlock s).memory =
    { s.memory with free := s.memory.free + 1, reserved := s.memory.reserved - 1 } :=
  settlePool_texts _

theorem findText_congr_texts {s t : State} (h : t.memory.texts = s.memory.texts) : t.findText = s.findText := by
  funext id
  simp only [State.findText, h]

/-- From s to t the reservation count and the excluded blocks stay, and no slot has gained a block. -/
structure SlotsOnlyLose (s t : State) : Prop where
  reserved : t.memory.reserved = s.memory.reserved
  excludedBlocks : t.memory.excludedBlocks = s.memory.excludedBlocks
  chains : ∀ x ∈ t.memory.texts, ∃ y ∈ s.memory.texts, y.chain = x.chain

theorem slotsOnlyLose_refl (s : State) : SlotsOnlyLose s s := ⟨rfl, rfl, fun x hx => ⟨x, hx, rfl⟩⟩

theorem freeText_slotsOnlyLose (slot : TextSlot) (s : State) : SlotsOnlyLose s (freeText slot s) := by
  constructor
  case chains =>
    intro x hx
    rw [freeText, settlePool_texts] at hx
    exact ⟨x, List.mem_of_mem_filter hx, rfl⟩
  all_goals rw [freeText, settlePool_texts]

theorem releaseRef_slotsOnlyLose (id : Nat) (s : State) : SlotsOnlyLose s (releaseRef id s) := by
  unfold releaseRef
  split
  case h_1 => exact slotsOnlyLose_refl s
  case h_2 slot _ =>
    split
    case isTrue => exact freeText_slotsOnlyLose slot s
    case isFalse =>
      refine ⟨rfl, rfl, fun x hx => ?_⟩
      obtain ⟨y, hy, rfl⟩ := List.mem_map.1 hx
      exact ⟨y, hy, by split <;> rfl⟩

theorem releaseOpt_slotsOnlyLose (label : Option Nat) (s : State) : SlotsOnlyLose s (releaseOpt label s) := by
  cases label with
  | none => exact slotsOnlyLose_refl s
  | some id => exact releaseRef_slotsOnlyLose id s

theorem releaseOpt_free (label : Option Nat) (s : State) : (releaseOpt label s).memory.free =
    s.memory.free + ((((label.bind s.findText).filter (fun x => x.released.isNone)).map
      (fun x => textBlocks x.bytes.length)).getD 0) := by
  cases label with
  | none => rfl
  | some id => exact releaseRef_free id s

theorem releaseOpt_judged (label : Option Nat) {s : State} (h : poolJudged s) : poolJudged (releaseOpt label s) := by
  cases label with
  | none => exact h
  | some id => exact releaseRef_judged id h

/-! ## The retirement of a reservation (R56) -/

section
variable (r : Reservation) (s : State)

theorem retire_reservations :
    (retire r s).store.reservations = s.store.reservations.filter (fun q => q.handle ≠ r.handle) :=
  calc (retire r s).store.reservations
      = (returnBlock { s with store.reservations := s.store.reservations.filter (fun q => q.handle ≠ r.handle) }
          ).store.reservations := releaseOpt_changes r.label _ .reservations (by decide)
    _ = _ := returnBlock_changes _ .reservations (by decide)

theorem retire_reserved : (retire r s).memory.reserved = s.memory.reserved - 1 := by
  rw [retire, (releaseOpt_slotsOnlyLose _ _).reserved, returnBlock_memory]

theorem retire_excludedBlocks : (retire r s).memory.excludedBlocks = s.memory.excludedBlocks := by
  rw [retire, (releaseOpt_slotsOnlyLose _ _).excludedBlocks, returnBlock_memory]

theorem retire_chains : ∀ x ∈ (retire r s).memory.texts, ∃ y ∈ s.memory.texts, y.chain = x.chain := by
  intro x hx
  obtain ⟨y, hy, same⟩ := (releaseOpt_slotsOnlyLose _ _).chains x hx
  rw [returnBlock_memory] at hy
  exact ⟨y, hy, same⟩

theorem retire_free : (retire r s).memory.free =
    s.memory.free + 1 + ((((r.label.bind s.findText).filter (fun x => x.released.isNone)).map
      (fun x => textBlocks x.bytes.length)).getD 0) := by
  rw [retire, releaseOpt_free, returnBlock_memory, findText_congr_texts (s := s) (by rw [returnBlock_memory])]

/-- R84: POOL_LOW follows a retirement. -/
theorem retire_judged : poolJudged (retire r s) :=
  releaseOpt_judged r.label (settlePool_judged _)

end

theorem retire_texts_unlabelled {r : Reservation} (s : State) (h : r.label = none) :
    (retire r s).memory.texts = s.memory.texts := by
  rw [retire, h]
  simp only [releaseOpt, returnBlock_memory]

theorem textReleased_retire {r : Reservation} {id : Nat} (s : State) (h : r.label = some id) :
    textReleased id s (retire r s) := by
  intro u
  rw [retire, h]
  simp only [releaseOpt]
  rw [textReleased_releaseRef id _ u, findText_congr_texts (s := s) (by rw [returnBlock_memory])]

/-! ## The uses of blocks (R79) -/

theorem mem_heldBlocks {s : State} {b : Nat} : b ∈ heldBlocks s ↔
    b ∈ s.memory.excludedBlocks ∨ (∃ r ∈ s.store.reservations, r.block = b) ∨ ∃ x ∈ s.memory.texts, b ∈ x.chain := by
  simp [heldBlocks]

theorem blockUse_of_not_held {s : State} {b : Nat} (h : b ∉ heldBlocks s) : blockUse s b = .free := by
  obtain ⟨excluded, reserved, chained⟩ : b ∉ s.memory.excludedBlocks ∧
      (¬ ∃ r ∈ s.store.reservations, r.block = b) ∧ ¬ ∃ x ∈ s.memory.texts, b ∈ x.chain := by
    simpa only [mem_heldBlocks, not_or] using h
  have noReservation : s.store.reservations.find? (fun r => r.block == b) = none := by simpa using reserved
  have noText : s.memory.texts.find? (fun t => t.chain.contains b) = none := by simpa using chained
  simp only [blockUse, excluded, if_false, noReservation, noText]

theorem blockUse_congr {s t : State} (hm : t.memory = s.memory) (hr : t.store.reservations = s.store.reservations)
    (b : Nat) : blockUse t b = blockUse s b := by
  simp only [blockUse, hm, hr]

/-- R79: where no block is held twice, the block of a reservation is held by nothing once that is retired. -/
theorem retire_block_not_held {s : State} {r : Reservation} (hr : r ∈ s.store.reservations)
    (once : (heldBlocks s).Nodup) : r.block ∉ heldBlocks (retire r s) := by
  obtain ⟨outer, -, apartTexts⟩ := List.nodup_append'.1 once
  obtain ⟨-, blocks, apartExcluded⟩ := List.nodup_append'.1 outer
  have hblock : r.block ∈ s.store.reservations.map (·.block) := List.mem_map_of_mem hr
  rw [mem_heldBlocks, retire_excludedBlocks, retire_reservations]
  rintro (excluded | ⟨q, hq, same⟩ | ⟨x, hx, chained⟩)
  · exact apartExcluded excluded hblock
  · obtain ⟨hmem, other⟩ := List.mem_filter.1 hq
    have : q = r := List.inj_on_of_nodup_map blocks hmem hr same
    simp [this] at other
  · obtain ⟨y, hy, hchain⟩ := retire_chains r s x hx
    exact apartTexts (List.mem_append_right _ hblock) (List.mem_flatMap.2 ⟨y, hy, hchain ▸ chained⟩)

/-! ## CANCEL -/

section
variable {fs : List RawField} {s : State} {r : Reservation}

theorem carryCancel_malformed (hs : shaped [need 1 2] fs = false) : carryCancel fs s = (s, refuse .malformed) := by
  simp [carryCancel, hs]

theorem carryCancel_refused {code : StatusCode} (hs : shaped [need 1 2] fs = true)
    (hx : readHandle s fs = .error code) : carryCancel fs s = (s, refuse code) := by
  simp [carryCancel, hs, hx]

theorem carryCancel_found (hs : shaped [need 1 2] fs = true) (hx : readHandle s fs = .ok r) :
    carryCancel fs s = (advanceSeats [r.coach] (retire r s), okWith []) := by
  simp [carryCancel, hs, hx, advanceSeats]

end

/-- R56, R66: the effect of CANCEL on a reservation that is held. -/
theorem cancel_taken {s : State} {o : Order} {r : Reservation} (ho : ordered .cancel s o)
    (hr : within 1 65534 (num o.fields 1) = true) (hx : s.findReservation (num o.fields 1) = some r) :
    ∃ t, taken .cancel s t [] ∧ t.store.reservations = (retire r (grantCrew s)).store.reservations ∧
      t.memory = (retire r (grantCrew s)).memory ∧
      t.crew.attention = (retire r (grantCrew s)).crew.attention ∧ seatNews [r.coach] s t := by
  have ⟨_, _, hs⟩ := ho
  obtain ⟨t, ht, left, -⟩ := taken_of ho (carryCancel_found (s := grantCrew s) hs (readHandle_found hr hx))
  refine ⟨t, ht, by rw [left.store]; rfl, left.memory, left.attention, left.seatNews (by simp) ?gens ?ports⟩
  case gens => exact retire_changes r _ .seatGens (by decide)
  case ports => exact retire_changes r _ .ports (by decide)

/-! ## The retirement of every reservation with a code (R67) -/

theorem retireAll_reservations (rs : List Reservation) (s : State) : (retireAll rs s).store.reservations =
    s.store.reservations.filter (fun q => q.handle ∉ rs.map (·.handle)) := by
  induction rs generalizing s with
  | nil => simp [retireAll]
  | cons r rs ih =>
    calc (retireAll rs (retire r s)).store.reservations
        = (s.store.reservations.filter (fun q => q.handle ≠ r.handle)).filter
            (fun q => q.handle ∉ rs.map (·.handle)) := by rw [ih, retire_reservations]
      _ = _ := by simp [List.filter_filter, Bool.and_comm]

/-- R52: where each handle is held once, those without the handles of the reservations that satisfy a test are those that
do not satisfy it. -/
theorem filter_handles {rs : List Reservation} (once : (rs.map (·.handle)).Nodup) (test : Reservation → Bool) :
    rs.filter (fun q => q.handle ∉ (rs.filter test).map (·.handle)) = rs.filter (fun q => !test q) := by
  refine List.filter_congr fun q hq => ?_
  have : q.handle ∈ (rs.filter test).map (·.handle) ↔ test q = true := by
    constructor
    · intro h
      obtain ⟨x, hx, same⟩ := List.mem_map.1 h
      obtain ⟨hmem, passes⟩ := List.mem_filter.1 hx
      rwa [← List.inj_on_of_nodup_map once hmem hq same]
    · exact fun h => List.mem_map_of_mem (List.mem_filter.2 ⟨hq, h⟩)
  simp [this]

/-- R67: whether a reservation has the code that the fields of CANCEL_CODE name. -/
def coded (fs : List RawField) (r : Reservation) : Bool := r.code == some (BitVec.ofNat 32 (num fs 1))

/-- R57: the coaches that lose a reservation when those that satisfy a test are retired. -/
def losers (s : State) (test : Reservation → Bool) : List (Fin 16) :=
  all16.filter (fun c => s.store.reservations.any (fun r => r.coach == c && test r))

theorem losers_nodup (s : State) (test : Reservation → Bool) : (losers s test).Nodup :=
  (List.nodup_finRange 16).filter _

theorem retireWhere_eq (test : Reservation → Bool) (s : State) : retireWhere test s =
    advanceSeats (losers s test) (retireAll (s.store.reservations.filter test) s) := by
  simp [retireWhere, losers, List.any_filter, Bool.and_comm]

theorem retireWhere_reservations {s : State} (once : (heldHandles s).Nodup) (test : Reservation → Bool) :
    (retireWhere test s).store.reservations = s.store.reservations.filter (fun q => !test q) := by
  rw [retireWhere_eq, advanceSeats_changes _ _ .reservations (by decide), retireAll_reservations,
    filter_handles once]

theorem retireWhere_none {s : State} {test : Reservation → Bool} (h : s.store.reservations.countP test = 0) :
    retireWhere test s = s := by
  have none_passes : ∀ r ∈ s.store.reservations, ¬ test r = true := List.countP_eq_zero.1 h
  have kept : s.store.reservations.filter test = [] := List.filter_eq_nil_iff.2 none_passes
  simp [retireWhere, kept, retireAll, advanceSeats]

/-- R79: record memory has no more than 2048 blocks for reservations. -/
theorem PoolLaw.reservations_le {s : State} (h : PoolLaw s) : s.store.reservations.length ≤ 2048 := by
  have total := h.total
  have reserved := h.reserved
  simp only [Config.poolBlocks] at total
  omega

/-! ## CANCEL_CODE -/

section
variable {fs : List RawField} {s : State}

theorem carryCancelCode_malformed (hs : shaped [need 1 4] fs = false) :
    carryCancelCode fs s = (s, refuse .malformed) := by
  simp [carryCancelCode, hs]

theorem carryCancelCode_shaped (hs : shaped [need 1 4] fs = true) : carryCancelCode fs s =
    (retireWhere (coded fs) s, okWith [⟨1, u16 (s.store.reservations.countP (coded fs))⟩]) := by
  simp only [carryCancelCode, hs, Bool.not_true, Bool.false_eq_true, if_false]
  rfl

theorem carryCancelCode_none (hs : shaped [need 1 4] fs = true) (h : s.store.reservations.countP (coded fs) = 0) :
    carryCancelCode fs s = (s, okWith [⟨1, u16 0⟩]) := by
  rw [carryCancelCode_shaped hs, retireWhere_none h, h]

end

/-- R67: the effect of CANCEL_CODE. -/
theorem cancelCode_taken {s : State} {o : Order} (ho : ordered .cancelCode s o) (once : (heldHandles s).Nodup) :
    ∃ t, taken .cancelCode s t [⟨1, u16 (s.store.reservations.countP (coded o.fields))⟩] ∧
      t.store.reservations = s.store.reservations.filter (fun r => !coded o.fields r) ∧
      seatNews (losers s (coded o.fields)) s t := by
  have ⟨_, _, hs⟩ := ho
  obtain ⟨t, ht, left, -⟩ := taken_of ho (carryCancelCode_shaped hs)
  refine ⟨t, ht, ?records, ?news⟩
  case records => rw [left.store, retireWhere_reservations (s := grantCrew s) once]; rfl
  case news =>
    rw [retireWhere_eq] at left
    refine left.seatNews (losers_nodup _ _) ?_ ?_
    · exact retireAll_changes _ _ .seatGens (by decide)
    · exact retireAll_changes _ _ .ports (by decide)

/-- Settles O31, by the checks of R66 in their order and by the retirement of R56, of one reservation and of all with a
code. -/
theorem cancelAndCancelCodeRetire : Obligations.CancelAndCancelCodeRetire := by
  refine ⟨fun s o g hk absent => ?malformed, fun s o ho => ?cancel, fun s o g hk absent => ?codeMalformed,
    fun s o ho once => ?code⟩
  case malformed =>
    exact answeredOnly_missing (width := 2) g (by rw [hk]; rfl) (by simp [orderShape]) absent carryCancel_malformed
  case cancel =>
    have ⟨_, _, hs⟩ := ho
    refine ⟨fun hr => ?range, fun hr hx => ?unknown, fun r hr hx => ?held⟩
    case range => exact answeredOnly_of ho (carryCancel_refused hs (readHandle_range hr))
    case unknown => exact answeredOnly_of ho (carryCancel_refused hs (readHandle_unknown hr hx))
    case held =>
      obtain ⟨t, ht, records, memory, attention, seats⟩ := cancel_taken ho hr hx
      refine ⟨t, ht, records.trans (retire_reservations r _), ?reserved, ?free, ?poolLow, seats, fun law => ?block,
        fun unlabelled => ?texts, fun id labelled u => ?label⟩
      case reserved => rw [memory]; exact retire_reserved r _
      case free => rw [memory]; exact retire_free r _
      case poolLow =>
        have settings : (retire r (grantCrew s)).settings = s.settings := retire_changes r _ .settings (by decide)
        rw [memory, attention, ← settings]
        exact retire_judged r _
      case block =>
        rw [blockUse_congr memory records]
        exact blockUse_of_not_held (retire_block_not_held (findReservation_mem hx) law.blocks.1)
      case texts => rw [memory]; exact retire_texts_unlabelled _ unlabelled
      case label => rw [findText_congr memory]; exact textReleased_retire (grantCrew s) labelled u
  case codeMalformed =>
    exact answeredOnly_missing (width := 4) g (by rw [hk]; rfl) (by simp [orderShape]) absent carryCancelCode_malformed
  case code =>
    have ⟨_, _, hs⟩ := ho
    refine ⟨fun law => ?most, fun none_coded => ?none, ?all⟩
    case most => exact List.countP_le_length.trans law.reservations_le
    case none => exact answeredOnly_of ho (carryCancelCode_none hs none_coded)
    case all =>
      obtain ⟨t, ht, records, news⟩ := cancelCode_taken ho once
      refine ⟨t, ht, records.trans (List.filter_congr fun r _ => ?_), news⟩
      simp [coded, beq_eq_decide]

end Sys2Proof.Machine

/-! PROOFS. WITHDRAW (R103): what freeing a notice entry leaves (R102), and the checks of the order. -/

namespace Sys2Proof.Machine

/-! ## Readers of the notice unit -/

theorem entry_congr_entries {s t : State} (h : t.notice.entries = s.notice.entries) (e : Fin 24) :
    t.entry e = s.entry e := by
  simp only [State.entry, h]

theorem listsOf_congr_lists {s t : State} (h : t.notice.lists = s.notice.lists) (c : Fin 16) :
    t.listsOf c = s.listsOf c := by
  simp only [State.listsOf, h]

@[simp] theorem entry_releaseRef (id : Nat) (s : State) (e : Fin 24) : (releaseRef id s).entry e = s.entry e :=
  entry_congr_entries (releaseRef_changes id s .entries (by decide)) e

@[simp] theorem listsOf_releaseRef (id : Nat) (s : State) (c : Fin 16) : (releaseRef id s).listsOf c = s.listsOf c :=
  listsOf_congr_lists (releaseRef_changes id s .lists (by decide)) c

/-! ## Freeing an entry (R102) -/

/-- R102 but for the text: the entry is FREE, and its pending PUSHes give way, with pulls to the PULLs of its holders. -/
def unlistEntry (e : Fin 24) (pulls : Bool) (l : LiveNotice) (s : State) : State :=
  { s with
    notice.entries := update s.notice.entries e (fun n => { n with live := none })
    notice.lists := tabulate (fun c =>
      if pulls && l.holders[c] then ((s.listsOf c).dropPush e).place (.pull e) else (s.listsOf c).dropPush e) }

theorem entry_unlistEntry (e f : Fin 24) (pulls : Bool) (l : LiveNotice) (s : State) :
    (unlistEntry e pulls l s).entry f = if f = e then ⟨(s.entry e).counter, none⟩ else s.entry f := by
  simp only [State.entry, unlistEntry, get_update]

theorem listsOf_unlistEntry (e : Fin 24) (pulls : Bool) (l : LiveNotice) (s : State) (c : Fin 16) :
    (unlistEntry e pulls l s).listsOf c =
      if pulls && l.holders[c] then ((s.listsOf c).dropPush e).place (.pull e) else (s.listsOf c).dropPush e := by
  simp only [State.listsOf, unlistEntry, get_tabulate]

section
variable {e : Fin 24} {l : LiveNotice} {s t : State}

theorem freeEntry_live (h : (s.entry e).live = some l) (pulls : Bool) :
    freeEntry e pulls s = releaseRef l.text (unlistEntry e pulls l s) := by
  simp only [freeEntry, h, unlistEntry]

/-- R102: what freeing a live entry with pulls leaves. -/
theorem freedWithPulls_freeEntry (h : (s.entry e).live = some l) : freedWithPulls e l s (freeEntry e true s) := by
  rw [freeEntry_live h]
  refine ⟨?entry, fun f other => ?others, fun c => ?lists, fun u => ?text⟩
  case entry => simp [entry_unlistEntry]
  case others => simp [entry_unlistEntry, other]
  case lists => simp [listsOf_unlistEntry]
  case text => exact textReleased_releaseRef l.text (unlistEntry e true l s) u

/-- R96: the freeing of an entry is counted. -/
theorem noticeNews_of_freed (h : (s.entry e).live = some l) (freed : (t.entry e).live = none) :
    noticeNews s t = true :=
  List.any_eq_true.2 ⟨e, mem_all24 e, by simp [entryNews, h, freed]⟩

/-- An order whose owner frees an entry with pulls: what follows the owner touches nothing that R102 speaks of. -/
theorem AsLeft.freedWithPulls {left : State} (h : AsLeft left t) (freed : freedWithPulls e l s left) :
    freedWithPulls e l s t := by
  obtain ⟨entry, others, pulls, text⟩ := freed
  refine ⟨?_, fun f other => ?_, fun c => ?_, fun u => ?_⟩
  · rw [entry_congr_entries h.entries, entry]
  · rw [entry_congr_entries h.entries, others f other]
  · rw [listsOf_congr_lists h.lists, pulls c]
  · rw [findText_congr h.memory, text u]

end

/-! ## WITHDRAW -/

theorem entryNo_outside {n : Nat} (h : within 1 24 n = false) : entryNo n = none := by
  have outside : ¬ (1 ≤ n ∧ n ≤ 24) := by simpa [within] using h
  exact dif_neg outside

section
variable {fs : List RawField} {s : State} {e : Fin 24} {l : LiveNotice}

theorem carryWithdraw_malformed (hs : shaped [need 1 1] fs = false) : carryWithdraw fs s = (s, refuse .malformed) := by
  simp [carryWithdraw, hs]

theorem carryWithdraw_range (hs : shaped [need 1 1] fs = true) (he : entryNo (num fs 1) = none) :
    carryWithdraw fs s = (s, refuse .range) := by
  simp [carryWithdraw, hs, he]

theorem carryWithdraw_unknown (hs : shaped [need 1 1] fs = true) (he : entryNo (num fs 1) = some e)
    (hl : (s.entry e).live = none) : carryWithdraw fs s = (s, refuse .unknown) := by
  simp [carryWithdraw, hs, he, hl]

theorem carryWithdraw_live (hs : shaped [need 1 1] fs = true) (he : entryNo (num fs 1) = some e)
    (hl : (s.entry e).live = some l) : carryWithdraw fs s = (freeEntry e true s, okWith []) := by
  simp [carryWithdraw, hs, he, hl]

end

/-- R102, R103: the effect of WITHDRAW on a live entry. -/
theorem withdraw_taken {s : State} {o : Order} {e : Fin 24} {l : LiveNotice} (ho : ordered .withdraw s o)
    (he : entryNo (num o.fields 1) = some e) (hl : (s.entry e).live = some l) :
    ∃ t, taken .withdraw s t [] ∧ freedWithPulls e l s t ∧ t.notice.gen = nextCount s.notice.gen := by
  have ⟨_, _, hs⟩ := ho
  have hgranted : ((grantCrew s).entry e).live = some l := hl
  have freed := freedWithPulls_freeEntry hgranted
  have ⟨entry, _⟩ := freed
  obtain ⟨t, ht, left, hgen⟩ := taken_of ho (carryWithdraw_live hs he hgranted)
  refine ⟨t, ht, left.freedWithPulls freed, ?gen⟩
  case gen =>
    have counted : noticeNews (grantCrew s) (freeEntry e true (grantCrew s)) = true :=
      noticeNews_of_freed hgranted (by rw [entry])
    have unmoved : (freeEntry e true (grantCrew s)).notice.gen = s.notice.gen :=
      freeEntry_changes e true (grantCrew s) .noticeGen (by decide)
    rw [hgen, if_pos counted, unmoved]

/-- Settles O35, by the checks of R103 in their order and then by the freeing of R102. -/
theorem withdrawFollowsItsRule : Obligations.WithdrawFollowsItsRule := by
  refine ⟨fun s o g hk absent => ?malformed, fun s o ho => ?shaped⟩
  case malformed =>
    exact answeredOnly_missing (width := 1) g (by rw [hk]; rfl) (by simp [orderShape]) absent carryWithdraw_malformed
  case shaped =>
    have ⟨_, _, hs⟩ := ho
    refine ⟨fun hr => ?range, fun e he hl => ?unknown, fun e l he hl => withdraw_taken ho he hl⟩
    case range => exact answeredOnly_of ho (carryWithdraw_range hs (entryNo_outside hr))
    case unknown => exact answeredOnly_of ho (carryWithdraw_unknown (s := grantCrew s) hs he hl)

end Sys2Proof.Machine

/-! PROOFS. The binding law (R148) over the ties of a state: of each coach entry the port that it names and its label,
of each port its state, its bound coach and the label of its last greeting. -/

namespace Sys2Proof.Machine

/-! ## The ties -/

/-- What a coach entry says of its link (R1). -/
structure CoachTie where
  port : Option (Fin 16)
  label : List Byte

/-- What a port record says of its link (R143). -/
structure PortTie where
  state : PortState
  bound : Option (Fin 16)
  greeted : Option (List Byte)

/-- All that the binding law reads of a state. -/
structure Ties where
  coach : Fin 16 → Option CoachTie
  port : Fin 16 → PortTie

def Coach.tie (k : Coach) : CoachTie := ⟨k.port, k.label⟩

def Port.tie (q : Port) : PortTie := ⟨q.state, q.bound, q.greeted⟩

def State.ties (s : State) : Ties := ⟨fun c => (s.coach c).map Coach.tie, fun p => (s.port p).tie⟩

/-- A coach entry names a port. -/
def Ties.Names (v : Ties) (c p : Fin 16) : Prop := ∃ k, v.coach c = some k ∧ k.port = some p

/-- A coach entry names a port and carries a label: the port is BOUND to it if its last greeting was that label. -/
def Ties.Fits (v : Ties) (p : Fin 16) (greeted : Option (List Byte)) (c : Fin 16) : Prop :=
  ∃ k, v.coach c = some k ∧ k.port = some p ∧ greeted = some k.label

/-- What R148 asks of a port record, if its port is p. -/
structure Ties.Admits (v : Ties) (p : Fin 16) (q : PortTie) : Prop where
  bound : q.state = .bound → ∃ c, q.bound = some c ∧ v.Fits p q.greeted c
  only : q.state ≠ .bound → q.bound = none

/-- The binding law over the ties, but for a port that is yet to be judged: that one, if it is BOUND, has a greeting. -/
structure Ties.LawfulBut (aside : Option (Fin 16)) (v : Ties) : Prop where
  named : ∀ p c d, v.Names c p → v.Names d p → c = d
  admits : ∀ p, some p ≠ aside → v.Admits p (v.port p)
  greeted : ∀ p, (v.port p).state = .bound → (v.port p).greeted.isSome
  only : ∀ p, (v.port p).state ≠ .bound → (v.port p).bound = none

/-- The binding law over the ties. -/
abbrev Ties.Lawful (v : Ties) : Prop := v.LawfulBut none

theorem names_iff (s : State) (c p : Fin 16) : s.names c p = true ↔ s.ties.Names c p := by
  simp [State.names, Ties.Names, State.ties, Coach.tie, Option.any_eq_true]

theorem fits_iff (s : State) (p c : Fin 16) (greeted : Option (List Byte)) :
    s.ties.Fits p greeted c ↔ s.names c p = true ∧ greeted.isSome ∧ greeted = (s.coach c).map (·.label) := by
  cases h : s.coach c with
  | none => simp [Ties.Fits, State.ties, State.names, h]
  | some k =>
    simp only [Ties.Fits, State.ties, State.names, h, Coach.tie, Option.map_some, Option.any_some, beq_iff_eq,
      Option.some.injEq, exists_eq_left']
    exact ⟨fun ⟨port, label⟩ => ⟨port, by simp [label], label⟩, fun ⟨port, _, label⟩ => ⟨port, label⟩⟩

theorem Ties.Fits.greeted {v : Ties} {p c : Fin 16} {greeted : Option (List Byte)} (h : v.Fits p greeted c) :
    greeted.isSome := by
  obtain ⟨k, _, _, label⟩ := h
  simp [label]

theorem bindingLaw_iff_lawful (s : State) : BindingLaw s ↔ s.ties.Lawful := by
  constructor
  · intro h
    have fits : ∀ p, (s.port p).state = .bound →
        ∃ c, (s.port p).bound = some c ∧ s.ties.Fits p (s.port p).greeted c := by
      intro p hp
      obtain ⟨c, hbound, hnames, hlabel⟩ := h.bound p hp
      obtain ⟨k, hk, _⟩ := (Option.any_eq_true _ _).1 hnames
      exact ⟨c, hbound, (fits_iff s p c _).2 ⟨hnames, by simp [hlabel, hk], hlabel⟩⟩
    refine ⟨fun p c d hc hd => ?named, fun p _ => ⟨fits p, h.only p⟩, fun p hp => ?greeted, h.only⟩
    case named => exact h.named p c d ((names_iff s c p).2 hc) ((names_iff s d p).2 hd)
    case greeted =>
      obtain ⟨c, _, hfits⟩ := fits p hp
      exact hfits.greeted
  · intro h
    refine ⟨fun p c d hc hd => ?named, fun p hp => ?bound, h.only⟩
    case named => exact h.named p c d ((names_iff s c p).1 hc) ((names_iff s d p).1 hd)
    case bound =>
      obtain ⟨c, hbound, hfits⟩ := (h.admits p (by simp)).bound hp
      obtain ⟨hnames, _, hlabel⟩ := (fits_iff s p c _).1 hfits
      exact ⟨c, hbound, hnames, hlabel⟩

/-! ## Changes of the ties that keep the law -/

def Ties.setPort (v : Ties) (p : Fin 16) (f : PortTie → PortTie) : Ties :=
  { v with port := fun q => if q = p then f (v.port p) else v.port q }

def Ties.setCoach (v : Ties) (c : Fin 16) (k : Option CoachTie) : Ties :=
  { v with coach := fun d => if d = c then k else v.coach d }

/-- R20: the entries of some coaches become VACANT, and the ports of a list are left with no bound coach. -/
def Ties.clear (v : Ties) (gone : CoachSet) (left : List (Fin 16)) : Ties where
  coach c := if gone[c] then none else v.coach c
  port q := if q ∈ left then
      { v.port q with
        state := if (v.port q).state = .bound ∨ (v.port q).state = .mismatched then .unbound else (v.port q).state
        bound := none }
    else v.port q

section
variable {v : Ties} {a : Option (Fin 16)} {p c : Fin 16}

theorem Ties.Lawful.but (h : v.Lawful) : v.LawfulBut a :=
  ⟨h.named, fun p _ => h.admits p (by simp), h.greeted, h.only⟩

/-- The port that was yet to be judged is as R148 asks. -/
theorem Ties.LawfulBut.settled (h : v.LawfulBut (some p)) (hp : v.Admits p (v.port p)) : v.Lawful := by
  refine ⟨h.named, fun q _ => ?_, h.greeted, h.only⟩
  by_cases e : q = p
  · exact e ▸ hp
  · exact h.admits q (by simpa using e)

/-- The record of one port is rewritten as R148 asks. -/
theorem Ties.LawfulBut.setPort {f : PortTie → PortTie} (h : v.LawfulBut (some p)) (hf : v.Admits p (f (v.port p))) :
    (v.setPort p f).Lawful := by
  have admits : ∀ q, v.Admits q ((v.setPort p f).port q) := by
    intro q
    by_cases e : q = p
    · subst e
      simpa [Ties.setPort] using hf
    · simpa [Ties.setPort, e] using h.admits q (by simpa using e)
  refine ⟨h.named, fun q _ => ⟨(admits q).bound, (admits q).only⟩, fun q hq => ?_, fun q => (admits q).only⟩
  obtain ⟨c, _, hfits⟩ := (admits q).bound hq
  exact hfits.greeted

/-- R144, R145: a port that is not BOUND has no coach. -/
theorem Ties.Lawful.setPort_unbound {f : PortTie → PortTie} (h : v.Lawful) (state : (f (v.port p)).state ≠ .bound)
    (bound : (f (v.port p)).bound = none) : (v.setPort p f).Lawful :=
  h.but.setPort ⟨fun hb => absurd hb state, fun _ => bound⟩

/-- R146: a port greets with a label, and is yet to be judged. -/
theorem Ties.Lawful.greet (h : v.Lawful) (label : List Byte) :
    (v.setPort p (fun q => { q with greeted := some label })).LawfulBut (some p) := by
  refine ⟨h.named, fun q hq => ?admits, fun q hq => ?greeted, fun q hq => ?only⟩
  case admits =>
    have e : q ≠ p := by simpa using hq
    have stays := h.admits q (by simp)
    simp only [Ties.setPort, e, if_false]
    exact ⟨stays.bound, stays.only⟩
  case greeted =>
    by_cases e : q = p
    · simp [Ties.setPort, e]
    · simp only [Ties.setPort, e, if_false] at hq ⊢
      exact h.greeted q hq
  case only =>
    by_cases e : q = p
    · subst e
      simp only [Ties.setPort, if_true] at hq ⊢
      exact h.only q hq
    · simp only [Ties.setPort, e, if_false] at hq ⊢
      exact h.only q hq

/-- R4 to R6: an entry is rewritten to name a port that no other entry names; the port that it named is yet to be
judged. -/
theorem Ties.Lawful.setCoach {k : Option CoachTie} (h : v.Lawful)
    (fresh : ∀ k' ∈ k, ∀ p, k'.port = some p → ∀ d, d ≠ c → ¬ v.Names d p) :
    (v.setCoach c k).LawfulBut ((v.coach c).bind (·.port)) := by
  have others : ∀ {d}, d ≠ c → (v.setCoach c k).coach d = v.coach d := fun e => by simp [Ties.setCoach, e]
  have names : ∀ {d p}, d ≠ c → (v.setCoach c k).Names d p → v.Names d p := by
    rintro d p e ⟨x, hx, hport⟩
    exact ⟨x, (others e).symm.trans hx, hport⟩
  have apart : ∀ {d p}, d ≠ c → (v.setCoach c k).Names c p → ¬ (v.setCoach c k).Names d p := by
    rintro d p e ⟨x, hx, hport⟩ hd
    have : k = some x := by simpa [Ties.setCoach] using hx
    exact fresh x this p hport d e (names e hd)
  refine ⟨fun p d e hd he => ?named, fun p hp => ⟨fun hb => ?bound, h.only p⟩, h.greeted, h.only⟩
  case named =>
    by_cases hdc : d = c <;> by_cases hec : e = c
    · exact hdc.trans hec.symm
    · exact absurd he (apart hec (hdc ▸ hd))
    · exact absurd hd (apart hdc (hec ▸ he))
    · exact h.named p d e (names hdc hd) (names hec he)
  case bound =>
    obtain ⟨d, hbound, x, hx, hport, hlabel⟩ := (h.admits p (by simp)).bound hb
    have e : d ≠ c := by
      rintro rfl
      simp [hx, hport] at hp
    exact ⟨d, hbound, x, (others e).trans hx, hport, hlabel⟩

/-- R20: the entries of coaches that leave become VACANT, and every port that one of them named is left. -/
theorem Ties.Lawful.clear {gone : CoachSet} {left : List (Fin 16)} (h : v.Lawful)
    (all : ∀ c p, gone[c] = true → v.Names c p → p ∈ left) : (v.clear gone left).Lawful := by
  have names : ∀ {c p}, (v.clear gone left).Names c p → v.Names c p := by
    rintro c p ⟨k, hk, hport⟩
    simp only [Ties.clear] at hk
    split at hk
    · cases hk
    · exact ⟨k, hk, hport⟩
  have admits : ∀ p, (v.clear gone left).Admits p ((v.clear gone left).port p) := by
    intro p
    by_cases hp : p ∈ left
    · refine ⟨fun hb => ?_, fun _ => by simp [Ties.clear, hp]⟩
      simp only [Ties.clear, hp, if_true] at hb
      split at hb <;> simp_all
    · have same : (v.clear gone left).port p = v.port p := by simp [Ties.clear, hp]
      rw [same]
      refine ⟨fun hb => ?_, h.only p⟩
      obtain ⟨c, hbound, k, hk, hport, hlabel⟩ := (h.admits p (by simp)).bound hb
      have stays : ¬ gone[c] = true := fun hc => hp (all c p hc ⟨k, hk, hport⟩)
      exact ⟨c, hbound, k, (if_neg stays).trans hk, hport, hlabel⟩
  refine ⟨fun p c d hc hd => h.named p c d (names hc) (names hd), fun p _ => admits p, fun p hp => ?_,
    fun p => (admits p).only⟩
  obtain ⟨c, _, hfits⟩ := (admits p).bound hp
  exact hfits.greeted

/-- Where no port is BOUND, only the entries count. -/
theorem Ties.lawful_of_unbound (named : ∀ p c d, v.Names c p → v.Names d p → c = d)
    (unbound : ∀ p, (v.port p).state ≠ .bound ∧ (v.port p).bound = none) : v.Lawful :=
  ⟨named, fun p _ => ⟨fun hb => absurd hb (unbound p).1, fun _ => (unbound p).2⟩,
    fun p hb => absurd hb (unbound p).1, fun p _ => (unbound p).2⟩

end

/-! ## What the updates of one record do to the ties -/

/-- Of the parts that a step may change, none is an entry or a port. -/
def sparesTies (l : List Part) : Bool := l.all (fun x => x != .coaches && x != .ports)

/-- A step that changes neither an entry nor a port leaves the ties. -/
theorem ties_of_changes {l : List Part} {s t : State} (h : changes l s t) (spares : sparesTies l = true) :
    t.ties = s.ties := by
  have spared : ∀ x ∈ l, x ≠ .coaches ∧ x ≠ .ports := by simpa [sparesTies] using spares
  have hc : t.formation.coaches = s.formation.coaches := h .coaches (fun hx => (spared _ hx).1 rfl)
  have hp : t.ports = s.ports := h .ports (fun hx => (spared _ hx).2 rfl)
  simp only [State.ties, State.coach, State.port, hc, hp]

theorem ties_ext {s t : State} (coaches : ∀ c, (t.coach c).map Coach.tie = (s.coach c).map Coach.tie)
    (ports : ∀ p, (t.port p).tie = (s.port p).tie) : t.ties = s.ties := by
  simp only [State.ties, coaches, ports]

theorem ties_updPort {f : Port → Port} {g : PortTie → PortTie} (p : Fin 16) (s : State)
    (h : ∀ q, (f q).tie = g q.tie) : (s.updPort p f).ties = s.ties.setPort p g := by
  simp only [State.ties, Ties.setPort, coach_updPort, port_updPort, ← h]
  congr 1
  funext q
  split <;> rfl

/-- A port is changed in what the law does not read. -/
theorem ties_updPort_same (p : Fin 16) (f : Port → Port) (s : State)
    (h : ∀ q, (f q).tie = q.tie) : (s.updPort p f).ties = s.ties := by
  refine ties_ext (fun _ => rfl) (fun q => ?_)
  rw [port_updPort]
  split
  · subst_vars; exact h _
  · rfl

/-- An entry is changed in what the law does not read. -/
theorem ties_updCoach_same (c : Fin 16) (f : Coach → Coach) (s : State)
    (h : ∀ k, (f k).tie = k.tie) : (s.updCoach c f).ties = s.ties := by
  refine ties_ext (fun d => ?_) (fun _ => rfl)
  rw [coach_updCoach]
  split
  · subst_vars
    rw [Option.map_map]
    exact congrArg (Option.map · _) (funext h)
  · rfl

theorem ties_namedPort (s : State) (c : Fin 16) : (s.ties.coach c).bind (·.port) = (s.coach c).bind (·.port) := by
  cases h : s.coach c <;> simp [State.ties, h, Coach.tie]

theorem ties_setCoach (c : Fin 16) (k : Option Coach) (s : State) :
    (s.setCoach c k).ties = s.ties.setCoach c (k.map Coach.tie) := by
  simp only [State.ties, Ties.setCoach, coach_setCoach, port_setCoach]
  congr 1
  funext d
  split <;> rfl

/-- A fold of steps that leave the ties leaves them. -/
theorem ties_foldl {α : Type} {f : State → α → State} (h : ∀ s a, (f s a).ties = s.ties) (as : List α) (s : State) :
    (as.foldl f s).ties = s.ties := by
  induction as generalizing s with
  | nil => rfl
  | cons a as ih => exact (ih (f s a)).trans (h s a)

theorem ties_ite {s t u : State} {c : Prop} [Decidable c] (h : t.ties = s.ties) (k : u.ties = s.ties) :
    (if c then t else u).ties = s.ties := by
  split <;> assumption

end Sys2Proof.Machine

/-! PROOFS. The operations that leave the ties: REFRESH flags and generations, levels, progress, orders, lookups, sends
and the frames that carry no greeting. -/

namespace Sys2Proof.Machine

/-! ## Generations and REFRESH flags (R11, R28, R57, R156) -/

theorem ties_refreshBound {s t : State} (f : RefreshFlags → RefreshFlags) (coaches : t.coach = s.coach)
    (ports : t.ports = refreshBound f s.ports) : t.ties = s.ties := by
  refine ties_ext (fun c => by rw [coaches]) (fun p => ?_)
  simp only [State.port, ports, refreshBound, get_tabulate]
  split <;> rfl

theorem ties_advanceFormation (s : State) : (advanceFormation s).ties = s.ties :=
  ties_refreshBound (fun r => { r with formation := true }) rfl rfl

theorem ties_advanceRoute (s : State) : (advanceRoute s).ties = s.ties :=
  ties_refreshBound (fun r => { r with route := true }) rfl rfl

theorem ties_advanceAllSeats (before : Vector Nat 16) (s : State) : (advanceAllSeats before s).ties = s.ties :=
  ties_refreshBound (fun r => { r with seats := true }) rfl rfl

theorem ties_advanceSeat (c : Fin 16) (s : State) : (advanceSeat c s).ties = s.ties := by
  refine ties_ext (fun _ => rfl) (fun p => ?_)
  simp only [State.port, advanceSeat, get_tabulate]
  split <;> rfl

theorem ties_advanceSeats (cs : List (Fin 16)) (s : State) : (advanceSeats cs s).ties = s.ties :=
  ties_foldl (fun s c => ties_advanceSeat c s) cs s

theorem ties_withNoticeNews (f : State → State) (s : State) : (withNoticeNews f s).ties = (f s).ties := by
  unfold withNoticeNews
  split <;> rfl

/-! ## Reservations (R56, R57, R72, R76) -/

theorem ties_retireAll (rs : List Reservation) (s : State) : (retireAll rs s).ties = s.ties :=
  ties_of_changes (retireAll_changes rs s) rfl

theorem ties_retireWhere (test : Reservation → Bool) (s : State) : (retireWhere test s).ties = s.ties :=
  (ties_advanceSeats _ _).trans (ties_retireAll _ s)

theorem ties_sweep (p : Portion) (stop : Nat) (s : State) : (sweep p stop s).ties = s.ties :=
  (ties_advanceSeats _ _).trans ((ties_of_changes (writeStatuses_changes p stop _) rfl).trans (ties_retireAll _ s))

theorem ties_restatus (c : Fin 16) (p : Portion) (s : State) : (restatus c p s).ties = s.ties := by
  unfold restatus
  exact ties_ite (ties_advanceSeat c _) rfl

/-! ## Levels (R160, R191 to R193) -/

theorem ties_levelPending (c : Fin 16) (s : State) : (levelPending c s).ties = s.ties := by
  unfold levelPending
  split
  · rfl
  · exact ties_updPort_same _ _ s (fun _ => by rfl)

theorem ties_changeLevel (level : Level) (s : State) (c : Fin 16) : (changeLevel level s c).ties = s.ties := by
  unfold changeLevel
  split
  · rfl
  · have pending : (levelPending c (s.updCoach c (fun k => { k with level := level }))).ties = s.ties :=
      (ties_levelPending c _).trans (ties_updCoach_same c _ s (fun _ => by rfl))
    refine ties_ite rfl (ties_ite ((ties_of_changes (darkCoach_changes c _) rfl).trans pending) (ties_ite ?_ pending))
    split
    · exact pending
    · exact (ties_updPort_same _ _ _ (fun _ => by rfl)).trans
        ((ties_of_changes (reachCoach_changes c _) rfl).trans pending)

theorem ties_settleLevels (s t : State) : (settleLevels s t).ties = t.ties :=
  ties_of_changes (settleLevels_changes s t) rfl

theorem ties_applyLevels (level : Level) (cs : List (Fin 16)) (s : State) : (applyLevels level cs s).ties = s.ties :=
  (ties_settleLevels s _).trans (ties_foldl (ties_changeLevel level) cs s)

theorem ties_judgeStabling (s : State) : (judgeStabling s).ties = s.ties :=
  ties_of_changes (judgeStabling_changes s) rfl

theorem ties_darkenForStabling (s : State) (c : Fin 16) : (darkenForStabling s c).ties = s.ties := by
  unfold darkenForStabling
  split
  · rfl
  · exact ties_ite ((ties_levelPending c _).trans (ties_updCoach_same c _ s (fun _ => by rfl)))
      ((ties_changeLevel .dark _ c).trans (ties_updCoach_same c _ s (fun _ => by rfl)))

theorem ties_enterStabling (s : State) : (enterStabling s).ties = s.ties := by
  unfold enterStabling
  refine ties_ite ?_ rfl
  exact (ties_judgeStabling _).trans ((ties_of_changes (setStablingDeadline_changes _ _) rfl).trans
    ((ties_settleLevels s _).trans (ties_foldl ties_darkenForStabling all16 (setMode .stabling s))))

theorem ties_restoreLevel (s : State) (c : Fin 16) : (restoreLevel s c).ties = s.ties := by
  unfold restoreLevel
  split
  · rfl
  · exact (ties_updCoach_same c _ _ (fun _ => by rfl)).trans (ties_changeLevel _ s c)

theorem ties_returnToService (s : State) : (returnToService s).ties = s.ties := by
  unfold returnToService
  refine ties_ite rfl ?_
  exact (ties_of_changes (setMode_changes _ _) rfl).trans ((ties_settleLevels s _).trans
    (ties_foldl ties_restoreLevel all16 (setStablingDeadline none s)))

theorem ties_wakeCoach (c : Fin 16) (s : State) : (wakeCoach c s).ties = s.ties := by
  unfold wakeCoach
  split
  · rfl
  · refine ties_ite rfl ?_
    split
    · exact ties_applyLevels .full [c] s
    · rfl
    · exact ties_returnToService s
    · exact ties_levelPending c s
    · exact ties_levelPending c s

/-! ## Progress (R40, R43 to R48) -/

theorem ties_stopNotice (p : Portion) (kind : NoticeKind) (stop : Nat) (s : State) :
    (stopNotice p kind stop s).ties = s.ties :=
  ties_of_changes (stopNotice_changes p kind stop s) rfl

theorem ties_record (c : Condition) (s : State) : (record c s).ties = s.ties := ties_of_changes (record_changes c s) rfl

theorem ties_arriveAt (p : Portion) (stop : Nat) (s : State) : (arriveAt p stop s).ties = s.ties := by
  have swept : (sweep p stop (s.updPortion p (fun r => { r with current := some stop, lastArrived := some stop }))).ties
      = s.ties := ties_sweep p stop _
  exact (ties_advanceRoute _).trans ((ties_of_changes (updPortion_changes p _ _) rfl).trans
    ((ties_record _ _).trans ((ties_stopNotice p .atStop stop _).trans swept)))

theorem ties_approachStop (p : Portion) (s : State) : (approachStop p s).ties = s.ties := by
  unfold approachStop
  refine (ties_advanceRoute _).trans ?_
  split
  · rfl
  · exact ties_stopNotice p .approaching _ _

theorem ties_departFor (p : Portion) (next : Nat) (s : State) : (departFor p next s).ties = s.ties :=
  (ties_advanceRoute _).trans ((ties_stopNotice p .nextStop next _).trans
    (ties_record _ _))

theorem ties_compareSide (p : Portion) (side : Side) (s : State) : (compareSide p side s).ties = s.ties :=
  ties_of_changes (compareSide_changes p side s) rfl

section
variable {p : Portion} {s t : State}

theorem ties_tryArrive (h : tryArrive p s = some t) : t.ties = s.ties := by
  unfold tryArrive at h
  split at h
  · obtain ⟨stop, _, rfl⟩ := Option.map_eq_some_iff.mp h
    exact ties_arriveAt p stop s
  · cases h

theorem ties_tryApproach (h : tryApproach p s = some t) : t.ties = s.ties := by
  unfold tryApproach at h
  split at h
  · cases h
    exact ties_approachStop p s
  · cases h

theorem ties_tryDepart (h : tryDepart p s = some t) : t.ties = s.ties := by
  obtain ⟨next, _, rfl⟩ := Option.map_eq_some_iff.mp h
  exact ties_departFor p next s

theorem ties_tryRelease {side : Side} (h : tryRelease p side s = some t) : t.ties = s.ties := by
  unfold tryRelease at h
  split at h
  · cases h
    exact (ties_compareSide p side _).trans (ties_advanceRoute _)
  · cases h
    exact ties_compareSide p side s
  · cases h
    exact ties_compareSide p side s
  · cases h

end

/-- R42: an event of the lines leaves the ties if it does so wherever it fits. -/
theorem ties_offerEvent {event : Portion → State → Option State}
    (h : ∀ {p s t}, event p s = some t → t.ties = s.ties) (s : State) : (offerEvent event s).ties = s.ties := by
  unfold offerEvent
  refine ties_ite rfl ((ties_withNoticeNews _ s).trans (ties_foldl (fun s p => ties_ite ?_ rfl) Portion.all s))
  cases e : event p s with
  | none => rfl
  | some t => exact h e

/-! ## Orders that leave the ties -/

theorem ties_judged {checks : List (Bool × StatusCode)} {s : State} {e : State × Reply} (h : e.1.ties = s.ties) :
    (judged checks s e).1.ties = s.ties := by
  unfold judged
  split
  · rfl
  · exact h

theorem ties_applied {s : State} {e : Option State} (h : ∀ {t}, e = some t → t.ties = s.ties) :
    (applied s e).1.ties = s.ties := by
  unfold applied
  split
  · exact h rfl
  · rfl

theorem ties_progressOrder {params : List Param} {own : Portion → List RawField → State → State × Reply}
    (h : ∀ p fs s, (own p fs s).1.ties = s.ties) (fs : List RawField) (s : State) :
    (progressOrder params own fs s).1.ties = s.ties := by
  unfold progressOrder
  split
  · rfl
  · split
    · rfl
    · exact ties_judged (h _ fs s)

section
variable (fs : List RawField) (s : State)

theorem ties_carryStart : (carryStart fs s).1.ties = s.ties := by
  refine ties_progressOrder (fun p fs s => ?_) fs s
  exact ties_judged (ties_arriveAt p (num fs 2) s)

theorem ties_carryApproach : (carryApproach fs s).1.ties = s.ties :=
  ties_progressOrder (fun _ _ _ => ties_applied ties_tryApproach) fs s

theorem ties_carryArrive : (carryArrive fs s).1.ties = s.ties :=
  ties_progressOrder (fun _ _ _ => ties_applied ties_tryArrive) fs s

theorem ties_carryReleaseDoors : (carryReleaseDoors fs s).1.ties = s.ties := by
  refine ties_progressOrder (fun p fs s => ?_) fs s
  split
  · rfl
  · exact ties_applied ties_tryRelease

theorem ties_carryDepart : (carryDepart fs s).1.ties = s.ties :=
  ties_progressOrder (fun _ _ _ => ties_applied ties_tryDepart) fs s

theorem ties_correctHeadings : (correctHeadings s).ties = s.ties := ties_of_changes (correctHeadings_changes s) rfl

theorem ties_carryAttach : (carryAttach fs s).1.ties = s.ties := by
  unfold carryAttach
  split
  · rfl
  · split
    · rfl
    · exact ties_judged (ties_advanceFormation _)

theorem ties_carrySetLevel : (carrySetLevel fs s).1.ties = s.ties := by
  unfold carrySetLevel
  split
  · rfl
  · split
    · exact ties_judged (ties_applyLevels _ _ s)
    · rfl

theorem ties_moveRef (old new : Option Nat) : (moveRef old new s).ties = s.ties :=
  ties_of_changes (moveRef_changes old new s) rfl

theorem ties_carryPutStop : (carryPutStop fs s).1.ties = s.ties := by
  unfold carryPutStop
  split_ifs
  · rfl
  · rfl
  · exact ties_judged ((ties_correctHeadings _).trans ((ties_advanceRoute _).trans
      (ties_moveRef _ _ _)))

theorem ties_releaseRef (id : Nat) : (releaseRef id s).ties = s.ties := ties_of_changes (releaseRef_changes id s) rfl

theorem ties_carryRemoveStop : (carryRemoveStop fs s).1.ties = s.ties := by
  unfold carryRemoveStop
  split_ifs
  · rfl
  · rfl
  · split
    · rfl
    · exact ties_judged ((ties_advanceRoute _).trans (ties_releaseRef _ _))

theorem ties_carryCancelStop : (carryCancelStop fs s).1.ties = s.ties := by
  unfold carryCancelStop
  split_ifs
  · rfl
  · rfl
  · split
    · rfl
    · split
      · rfl
      · exact ties_judged ((ties_correctHeadings _).trans (ties_advanceRoute _))

theorem ties_carryReinstateStop : (carryReinstateStop fs s).1.ties = s.ties := by
  unfold carryReinstateStop
  split_ifs
  · rfl
  · rfl
  · split
    · rfl
    · split
      · exact (ties_correctHeadings _).trans (ties_advanceRoute _)
      · rfl

theorem ties_carrySetDelay : (carrySetDelay fs s).1.ties = s.ties := by
  unfold carrySetDelay
  split_ifs
  · rfl
  · rfl
  · split
    · rfl
    · exact ties_advanceRoute _

theorem ties_carryBook : (carryBook fs s).1.ties = s.ties := by
  unfold carryBook
  split
  · rfl
  · split
    · rfl
    · refine ties_judged ((ties_advanceSeat _ _).trans ((ties_of_changes (writeBooking_changes _ _ _ _) rfl).trans ?_))
      rename_i b _
      cases b.label with
      | none => exact ties_of_changes (takeBlock_changes s) rfl
      | some id => exact (ties_of_changes (addRef_changes id _) rfl).trans (ties_of_changes (takeBlock_changes s) rfl)

theorem ties_carryConfirm : (carryConfirm fs s).1.ties = s.ties := by
  unfold carryConfirm
  split
  · rfl
  · split
    · rfl
    · split
      · rfl
      · exact ties_advanceSeat _ _

theorem ties_carryCancel : (carryCancel fs s).1.ties = s.ties := by
  unfold carryCancel
  split
  · rfl
  · split
    · rfl
    · exact (ties_advanceSeat _ _).trans (ties_of_changes (retire_changes _ s) rfl)

theorem ties_carryCancelCode : (carryCancelCode fs s).1.ties = s.ties := by
  unfold carryCancelCode
  split
  · rfl
  · exact ties_retireWhere _ s

theorem ties_carryMove : (carryMove fs s).1.ties = s.ties := by
  unfold carryMove
  split
  · rfl
  · split
    · rfl
    · split
      · rfl
      · split
        · rfl
        · exact ties_judged (ties_advanceSeats _ _)

theorem ties_carryReplace : (carryReplace fs s).1.ties = s.ties := by
  unfold carryReplace
  split
  · rfl
  · split
    · rfl
    · split
      · rfl
      · exact ties_judged ((ties_advanceSeats _ _).trans ((ties_of_changes (writeBooking_changes _ _ _ _) rfl).trans
          (ties_moveRef _ _ _)))

theorem ties_settlePool : (settlePool s).ties = s.ties := ties_of_changes (settlePool_changes s) rfl

theorem ties_setQuota (p : Fin 16) (quota : Nat) : (setQuota p quota s).ties = s.ties :=
  ties_updPort_same p (Port.trimQuota quota)
    { s with settings.queryQuota := update s.settings.queryQuota p (fun _ => quota) } (fun _ => by rfl)

theorem ties_setLine (n : Nat) (f : Line → Line) : (setLine n f s).ties = s.ties :=
  ties_of_changes (setLine_changes n f s) rfl

theorem ties_writeSetting (setting index value : Nat) : (writeSetting setting index value s).ties = s.ties := by
  unfold writeSetting
  dsimp only
  split
  case h_2 => exact ties_settlePool _
  case h_5 =>
    cases portNo index with
    | none => rfl
    | some p => exact ties_setQuota s p value
  case h_9 =>
    unfold setAutoStop
    split <;> rfl
  case h_16 => cases portNo index <;> rfl
  case h_18 => exact ties_setLine s _ _
  case h_19 => exact ties_setLine s _ _
  case h_20 => cases lineNo value <;> rfl
  all_goals rfl

theorem ties_carrySet : (carrySet fs s).1.ties = s.ties := by
  unfold carrySet
  split_ifs
  · rfl
  · rfl
  · exact ties_writeSetting s _ _ _

theorem ties_carryEnterStabled : (carryEnterStabled fs s).1.ties = s.ties := by
  unfold carryEnterStabled
  split
  · exact ties_enterStabling s
  · rfl

theorem ties_carryLeaveStabled : (carryLeaveStabled fs s).1.ties = s.ties := by
  unfold carryLeaveStabled
  split
  · exact ties_returnToService s
  · rfl

end

end Sys2Proof.Machine

/-! PROOFS. The lookups, the sends and the frames that carry no greeting leave the ties too. -/

namespace Sys2Proof.Machine

/-! ## Lookups (R125, R127 to R141, R153) -/

section
variable (a : Asker) (s : State)

theorem ties_setContinuation (k : Option Continuation) : (setContinuation a k s).ties = s.ties := by
  cases a with
  | crew => rfl
  | coach p c => exact ties_updPort_same p _ s (fun _ => by rfl)

theorem ties_serveWalk (w : Walk) (mask key : Nat) : (serveWalk a w mask key s).1.ties = s.ties := by
  unfold serveWalk
  dsimp only
  split <;> exact ties_setContinuation a s _

theorem ties_answerContinue : (answerContinue a s).1.ties = s.ties := by
  unfold answerContinue
  split
  · rfl
  · split
    · exact ties_serveWalk a s _ _ _
    · exact ties_setContinuation a s none

theorem ties_answerSeat (c : Fin 16) (seat mask : Nat) : (answerSeat a c seat mask s).1.ties = s.ties := by
  unfold answerSeat
  split
  · rfl
  · split
    · rfl
    · exact ties_serveWalk a s _ mask 0

theorem ties_answerLocator (l : Locator) (fs : List RawField) : (answerLocator a l fs s).1.ties = s.ties := by
  cases l with
  | seat =>
    unfold answerLocator
    dsimp only
    split
    · rfl
    · exact ties_answerSeat a s _ _ _
  | seatNext => cases a with
    | crew => rfl
    | coach p c => exact ties_updPort_same p _ s (fun _ => by rfl)
  | seatCursor => cases a with
    | crew => rfl
    | coach p c => exact ties_updPort_same p _ s (fun _ => by rfl)
  | routeWindow =>
    unfold answerLocator
    dsimp only
    split
    · rfl
    · exact ties_serveWalk a s _ _ 0
  | notices => exact ties_serveWalk a s _ _ 0
  | formation => exact ties_serveWalk a s _ _ 0
  | self => cases a <;> rfl
  | resume => exact ties_answerContinue a s
  | reservation =>
    unfold answerLocator
    dsimp only
    split <;> rfl
  | booking => exact ties_serveWalk a s _ _ 0
  | lines => exact ties_serveWalk a s _ _ 0
  | settings => exact ties_serveWalk a s _ _ 0
  | _ => rfl

theorem ties_engine (l : Option Locator) (fs : List RawField) : (engine a l fs s).1.ties = s.ties := by
  unfold engine
  split
  · exact ties_setContinuation a s none
  · rename_i l
    have cleared : (if l = .resume then s else setContinuation a none s).ties = s.ties :=
      ties_ite rfl (ties_setContinuation a s none)
    dsimp only
    split
    · exact cleared
    · split
      · exact cleared
      · exact (ties_answerLocator a _ l fs).trans cleared

end

theorem ties_answerQuery (p : Fin 16) (q : Query) (s : State) : (answerQuery p q s).1.ties = s.ties := by
  unfold answerQuery
  split
  · rfl
  · dsimp only
    split
    · rfl
    · exact ties_engine _ s _ _

theorem ties_grantPort (p : Fin 16) (s : State) : (grantPort p s).ties = s.ties :=
  ties_updPort_same p _ { s with arbiter := ⟨p, 0⟩ } (fun _ => by rfl)

theorem ties_carryQuery (p : Fin 16) (q : Query) (s : State) : (carryQuery p q s).ties = s.ties :=
  (ties_updPort_same p _ _ (fun _ => by rfl)).trans ((ties_answerQuery p q _).trans (ties_grantPort p s))

theorem ties_carryRead (o : Order) (s : State) : (carryRead o s).ties = s.ties :=
  (ties_of_changes (answerCrew_changes _ _) rfl).trans ((ties_engine .crew _ _ o.fields).trans
    (ties_of_changes (grantCrew_changes s) rfl))

theorem ties_lookupStep (l : Option Locator) (s : State) : (lookupStep l s).ties = s.ties := by
  unfold lookupStep
  split
  · exact ties_ite (ties_carryRead _ s) rfl
  · exact ties_ite (ties_carryQuery _ _ s) rfl
  · rfl

/-! ## Sends (R155) -/

section
variable (p : Fin 16) (s : State)

theorem ties_handOut (m : LinkMessage) : (handOut p m s).ties = s.ties :=
  ties_updPort_same p _ s (fun _ => by rfl)

theorem ties_sendWelcome : (sendWelcome p s).ties = s.ties :=
  (ties_handOut p _ _).trans (ties_updPort_same p _ s (fun _ => by rfl))

theorem ties_sendLevel : (sendLevel p s).ties = s.ties :=
  (ties_handOut p _ _).trans (ties_updPort_same p _ s (fun _ => by rfl))

theorem ties_sendRelease : (sendRelease p s).ties = s.ties :=
  (ties_handOut p _ _).trans (ties_updPort_same p _ s (fun _ => by rfl))

theorem ties_sendAnswer : (sendAnswer p s).ties = s.ties := by
  unfold sendAnswer
  split
  · rfl
  · exact (ties_handOut p _ _).trans (ties_updPort_same p _ s (fun _ => by rfl))

theorem ties_sendPull : (sendPull p s).ties = s.ties := by
  unfold sendPull
  split
  · rfl
  · split
    · rfl
    · exact ties_handOut p _ _

theorem ties_sendPush : (sendPush p s).ties = s.ties := by
  unfold sendPush
  split
  · rfl
  · split
    · rfl
    · exact ties_handOut p _ _

theorem ties_sendRefresh : (sendRefresh p s).ties = s.ties := by
  unfold sendRefresh
  split
  · rfl
  · exact (ties_handOut p _ _).trans (ties_updPort_same p _ s (fun _ => by rfl))

end

theorem ties_sendStep {send : Fin 16 → State → State} (h : ∀ p s, (send p s).ties = s.ties) (kind : LinkKind)
    (p : Fin 16) (s : State) : (sendStep kind send p s).ties = s.ties :=
  ties_ite (h p s) rfl

/-! ## Frames and carriers (R144, R149, R152, R157, R158, R162) -/

section
variable (p : Fin 16) (s : State)

theorem ties_changeCarrier (present : Bool) : (changeCarrier p present s).ties = s.ties :=
  ties_ite rfl (ties_updPort_same p _ s (fun _ => by rfl))

theorem ties_countError : (countError p s).ties = s.ties := ties_updPort_same p _ s (fun _ => by rfl)

theorem ties_takeQuery (tag : Nat) (fields : List RawField) : (takeQuery p tag fields s).ties = s.ties := by
  unfold takeQuery
  split
  · refine ties_updPort_same p _ s (fun q => ?_)
    split <;> rfl
  · exact ties_updPort_same p _ s (fun _ => by rfl)

theorem ties_takeNoticeReceipt (entry edition : Nat) : (takeNoticeReceipt p entry edition s).ties = s.ties := by
  unfold takeNoticeReceipt
  split
  · rfl
  · exact ties_of_changes (takeReceipt_changes _ _ _ s) rfl

theorem ties_takeLevelReceipt : (takeLevelReceipt p s).ties = s.ties :=
  ties_ite ((ties_judgeStabling _).trans (ties_updPort_same p _ s (fun _ => by rfl))) rfl

theorem ties_takeWake : (takeWake p s).ties = s.ties := by
  unfold takeWake
  split
  · rfl
  · exact ties_wakeCoach _ s

theorem ties_welcomeCoach (c : Fin 16) : (welcomeCoach p c s).ties = s.ties := by
  unfold welcomeCoach
  exact ties_ite ((ties_of_changes (reachCoach_changes c _) rfl).trans (ties_updPort_same p _ s (fun _ => by rfl)))
    (ties_updPort_same p _ s (fun _ => by rfl))

theorem ties_restartCdc (c : Fin 16) : (restartCdc p c s).ties = s.ties :=
  (ties_welcomeCoach p _ c).trans ((ties_of_changes (restartCoach_changes c _) rfl).trans
    (ties_updPort_same p Port.restarted s (fun _ => by rfl)))

theorem ties_beginWaits : (beginWaits s).ties = s.ties := by
  refine ties_ext (fun _ => rfl) (fun q => ?_)
  simp only [State.port, beginWaits, get_tabulate]
  rfl

end

end Sys2Proof.Machine

/-! PROOFS. The operations that bind and unbind ports: what each makes of the ties, and that it keeps the law. -/

namespace Sys2Proof.Machine

/-! ## Leaving and taking a binding (R146, R147, R150) -/

/-- The state that R146's table gives a port. -/
def Binding.portState : Binding → PortState
  | .unbound => .unbound
  | .mismatched => .mismatched
  | .bound _ => .bound

/-- The coach that R146's table binds a port to. -/
def Binding.coach : Binding → Option (Fin 16)
  | .bound c => some c
  | .unbound | .mismatched => none

/-- A port that takes an outcome of R146's table. -/
def PortTie.take (out : Binding) (q : PortTie) : PortTie := { q with state := out.portState, bound := out.coach }

theorem Ties.setPort_setPort (v : Ties) (p : Fin 16) (f g : PortTie → PortTie) :
    (v.setPort p f).setPort p g = v.setPort p (g ∘ f) := by
  simp only [Ties.setPort, if_true, Function.comp]
  congr 1
  funext q
  split <;> rfl

theorem Ties.setPort_self {v : Ties} {p : Fin 16} {f : PortTie → PortTie} (h : f (v.port p) = v.port p) :
    v.setPort p f = v := by
  have : ∀ q, (if q = p then v.port p else v.port q) = v.port q := fun q => by split <;> simp_all
  simp only [Ties.setPort, h, this]

/-- R150: but for its state, which is the caller's, a port that leaves BOUND loses its coach. -/
theorem ties_leaveBound (p : Fin 16) (s : State) :
    (leaveBound p s).ties = s.ties.setPort p (fun q => { q with bound := none }) := by
  unfold leaveBound
  split
  · rename_i h
    exact (Ties.setPort_self (by simp [State.ties, Port.tie, h])).symm
  · exact (ties_updCoach_same _ _ _ (fun _ => by rfl)).trans ((ties_of_changes (unreachCoach_changes _ _) rfl).trans
      (ties_updPort p s (fun _ => rfl)))

theorem ties_bindPort (p c : Fin 16) (s : State) :
    (bindPort p c s).ties = s.ties.setPort p (PortTie.take (.bound c)) :=
  (ties_welcomeCoach p _ c).trans ((ties_record _ _).trans ((ties_updCoach_same c _ _ (fun _ => by rfl)).trans
    (ties_updPort p s (fun _ => rfl))))

/-- R146, R150: a port takes an outcome, whatever it was. -/
theorem ties_takeBinding {p : Fin 16} (out : Binding) {s : State}
    (only : (s.port p).state ≠ .bound → (s.port p).bound = none) :
    (takeBinding p out s).ties = s.ties.setPort p (PortTie.take out) := by
  have left : (if (s.port p).state = .bound then leaveBound p s else s).ties =
      s.ties.setPort p (fun q => { q with bound := none }) := by
    split
    · exact ties_leaveBound p s
    · rename_i h
      exact (Ties.setPort_self (by simp [State.ties, Port.tie, only h])).symm
  unfold takeBinding
  generalize (if (s.port p).state = .bound then leaveBound p s else s) = t at left ⊢
  have moved : ∀ f : Port → Port, (∀ q, (f q).tie = { q.tie with state := out.portState }) → out.coach = none →
      (t.updPort p f).ties = s.ties.setPort p (PortTie.take out) := fun f hf hout => by
    rw [ties_updPort (g := fun q => { q with state := out.portState }) p t hf, left, Ties.setPort_setPort]
    exact congrArg (s.ties.setPort p) (funext fun q => by simp [PortTie.take, hout])
  cases out with
  | unbound => exact moved _ (fun _ => rfl) rfl
  | mismatched => exact (ties_record _ _).trans (moved _ (fun _ => rfl) rfl)
  | bound c =>
    refine (ties_bindPort p c t).trans ?_
    rw [left, Ties.setPort_setPort]
    rfl

/-- R146's table says BOUND of the entry that names the port, if it carries the label. -/
theorem bindingFor_fits {s : State} {p c : Fin 16} {label : List Byte} (h : bindingFor s p label = .bound c) :
    s.ties.Fits p (some label) c := by
  unfold bindingFor at h
  split at h
  · cases h
  · rename_i d named
    split at h
    · rename_i carries
      cases h
      have names : s.names c p = true := by simpa [State.names] using List.find?_some named
      obtain ⟨k, hk, hlabel⟩ := Option.any_eq_true _ _ |>.mp carries
      refine (fits_iff s p c _).2 ⟨names, rfl, ?_⟩
      simpa [hk] using (beq_iff_eq.1 hlabel).symm
    · cases h

section
variable {s : State} {p : Fin 16} {label : List Byte}

/-- R148: a port that takes the outcome for the label of its last greeting is as the law asks. -/
theorem lawful_takeBinding (h : s.ties.LawfulBut (some p)) (greeted : (s.port p).greeted = some label) :
    (takeBinding p (bindingFor s p label) s).ties.Lawful := by
  rw [ties_takeBinding _ (h.only p)]
  refine h.setPort ⟨fun hb => ?_, fun hn => ?_⟩
  · cases out : bindingFor s p label with
    | bound c => exact ⟨c, rfl, (show (s.ties.port p).greeted = some label from greeted) ▸ bindingFor_fits out⟩
    | unbound => simp [out, PortTie.take, Binding.portState] at hb
    | mismatched => simp [out, PortTie.take, Binding.portState] at hb
  · cases out : bindingFor s p label with
    | bound c => simp [out, PortTie.take, Binding.portState] at hn
    | unbound => rfl
    | mismatched => rfl

/-- R150: a port whose state and coach are the outcome for the label of its last greeting is as the law asks. -/
theorem admits_of_has (h : s.ties.LawfulBut (some p)) (greeted : (s.port p).greeted = some label)
    (has : (s.port p).has (bindingFor s p label) = true) : s.ties.Admits p (s.ties.port p) := by
  refine ⟨fun (hb : (s.port p).state = .bound) => ?_, h.only p⟩
  cases out : bindingFor s p label with
  | bound c =>
    have bound : (s.port p).bound = some c := by simpa [out, Port.has, hb] using has
    exact ⟨c, bound, (show (s.ties.port p).greeted = some label from greeted) ▸ bindingFor_fits out⟩
  | unbound => simp [out, Port.has, hb] at has
  | mismatched => simp [out, Port.has, hb] at has

/-- R150: re-evaluation judges the port that was yet to be judged. -/
theorem lawful_reevaluate (h : s.ties.LawfulBut (some p)) : (reevaluate p s).ties.Lawful := by
  have idle : (s.port p).state ≠ .bound → s.ties.Lawful := fun hn =>
    h.settled ⟨fun hb => absurd hb hn, h.only p⟩
  unfold reevaluate
  split
  case h_1 down => exact idle (by simp [down])
  case h_2 greeting => exact idle (by simp [greeting])
  case h_3 silent _ _ =>
    refine idle (fun hb => ?_)
    have some_label : (s.port p).greeted.isSome := h.greeted p hb
    simp [silent] at some_label
  case h_4 label greeted _ _ =>
    dsimp only
    split
    · rename_i has
      exact h.settled (admits_of_has h greeted has)
    · exact lawful_takeBinding h greeted

end

theorem lawful_reevaluateOpt {s : State} {p : Option (Fin 16)} (h : s.ties.LawfulBut p) :
    (reevaluateOpt p s).ties.Lawful := by
  cases p with
  | none => exact h
  | some p => exact lawful_reevaluate h

/-! ## Greetings (R146, R149) -/

theorem lawful_takeGreet {s : State} (h : s.ties.Lawful) (p : Fin 16) (label : List Byte) (maximum : Nat) :
    (takeGreet p label maximum s).ties.Lawful := by
  have greets : (s.updPort p (fun q =>
      { q with greeted := some label, maximum := maximum, frameErrors := 0 })).ties.LawfulBut (some p) := by
    rw [ties_updPort (g := fun q => { q with greeted := some label }) p s (fun _ => rfl)]
    exact h.greet label
  have greeted : ((s.updPort p (fun q =>
      { q with greeted := some label, maximum := maximum, frameErrors := 0 })).port p).greeted = some label := by simp
  unfold takeGreet
  dsimp only
  generalize s.updPort p _ = t at greets greeted ⊢
  have taken := lawful_takeBinding greets greeted
  split
  · split
    · rename_i has
      rw [ties_restartCdc]
      exact greets.settled (admits_of_has greets greeted has)
    · exact taken
  · exact taken

/-! ## Detaching completion (R17 to R21) -/

/-- The coaches of a portion. -/
def goneWith (s : State) (p : Portion) : CoachSet := tabulate (fun c => s.portionOf c == some p)

/-- The ports that the coaches of a portion name. -/
def portsNamed (s : State) (p : Portion) : List (Fin 16) :=
  (s.coachesOf p).filterMap (fun c => (s.coach c).bind (·.port))

theorem mem_portsNamed {s : State} {p : Portion} {c q : Fin 16} (hc : (goneWith s p)[c] = true)
    (hq : s.ties.Names c q) : q ∈ portsNamed s p := by
  obtain ⟨k, hk, hport⟩ := hq
  refine List.mem_filterMap.2 ⟨c, ?_, ?_⟩
  · simpa only [State.coachesOf, goneWith, get_tabulate, List.mem_filter, mem_all16, true_and] using hc
  · obtain ⟨x, hx, rfl⟩ := Option.map_eq_some_iff.1 hk
    exact (congrArg (Option.bind · _) hx).trans hport

theorem ties_clearCoaches (gone : CoachSet) (left : List (Fin 16)) (s : State) :
    (clearCoaches gone left s).ties = s.ties.clear gone left := by
  simp only [State.ties, Ties.clear, State.coach, State.port, clearCoaches, get_tabulate]
  congr 1
  · funext c
    split <;> rfl
  · funext q
    split <;> rfl

/-- R18 to R21 leave the ties but for the entries and the ports of the portion's coaches. -/
theorem ties_completeDetach (p : Portion) (forced : Bool) (s : State) :
    (completeDetach p forced s).ties = s.ties.clear (goneWith s p) (portsNamed s p) := by
  unfold completeDetach
  refine (ties_judgeStabling _).trans ((ties_advanceRoute _).trans ((ties_advanceFormation _).trans
    ((ties_record _ _).trans ((ties_of_changes (updPortion_changes p _ _) rfl).trans
      ((ties_clearCoaches _ _ _).trans ?_)))))
  refine congrArg (Ties.clear · (goneWith s p) (portsNamed s p)) ?_
  refine (ties_of_changes (detachStops_changes p _) rfl).trans
    ((ties_of_changes (freeEntry_changes p.stopEntry false _) rfl).trans
      ((ties_of_changes (emptyLists_changes _ _) rfl).trans
        ((ties_foldl (fun s e => ?_) _ _).trans (ties_retireWhere _ s))))
  exact ties_of_changes (detachEntry_changes p _ e s) rfl

theorem lawful_completeDetach {s : State} (h : s.ties.Lawful) (p : Portion) (forced : Bool) :
    (completeDetach p forced s).ties.Lawful := by
  rw [ties_completeDetach]
  exact h.clear (fun _ _ => mem_portsNamed)

end Sys2Proof.Machine

/-! PROOFS. The operations that use these keep the binding law: detaching, losses of links, frames, and the orders of
the formation table. -/

namespace Sys2Proof.Machine

/-! ## Detaching, losses of links and frames -/

section
variable {s : State}

/-- The law depends on the ties alone. -/
theorem lawful_of_ties {t : State} (h : s.ties.Lawful) (same : t.ties = s.ties) : t.ties.Lawful := by
  rwa [same]

theorem lawful_forceDetach (h : s.ties.Lawful) : (forceDetach s).ties.Lawful := by
  unfold forceDetach
  split
  · exact h
  · exact lawful_completeDetach h _ true

theorem lawful_settleDetach (h : s.ties.Lawful) : (settleDetach s).ties.Lawful := by
  unfold settleDetach
  split
  · exact h
  · split
    · exact h
    · exact lawful_completeDetach h _ false

theorem lawful_settlePorts (h : s.ties.Lawful) : (settlePorts s).ties.Lawful := by
  unfold settlePorts
  rw [ties_judgeStabling]
  exact lawful_settleDetach h

theorem lawful_withNoticeNews {f : State → State} (h : (f s).ties.Lawful) : (withNoticeNews f s).ties.Lawful := by
  rwa [ties_withNoticeNews]

theorem lawful_expireDetach (h : s.ties.Lawful) : (expireDetach s).ties.Lawful := by
  unfold expireDetach
  split
  · exact h
  · split
    · exact lawful_withNoticeNews (lawful_completeDetach h _ true)
    · exact h

theorem lawful_takeCoupler (h : s.ties.Lawful) (p : Portion) (active : Bool) :
    (takeCoupler p active s).ties.Lawful := by
  unfold takeCoupler
  split
  · exact h
  · split
    · exact h
    · rwa [ties_record]
    · exact lawful_completeDetach h p false

theorem lawful_qualify (h : s.ties.Lawful) (p : Fin 16) : (qualify p s).ties.Lawful := by
  unfold qualify
  dsimp only
  split
  · rename_i waits
    obtain ⟨_, down, _⟩ := waits
    rw [ties_updPort (g := fun q => { q with state := .greeting, greeted := none }) p s (fun _ => rfl)]
    have unbound : (s.port p).bound = none := h.only p (by simp [State.ties, Port.tie, down])
    exact h.setPort_unbound (by simp) unbound
  · exact h

theorem lawful_loseLink (h : s.ties.Lawful) (p : Fin 16) : (loseLink p s).ties.Lawful := by
  have lost : (s.updPort p Port.lost).ties.Lawful := by
    rw [ties_updPort (g := fun _ => ⟨.down, none, none⟩) p s (fun _ => rfl)]
    exact h.setPort_unbound (by simp) rfl
  unfold loseLink
  dsimp only
  split
  · exact lost
  · rename_i c _
    have same : (loseCoach c (s.updPort p Port.lost)).ties = (s.updPort p Port.lost).ties :=
      (ties_record _ _).trans ((ties_updCoach_same c _ _ (fun _ => by rfl)).trans
        (ties_of_changes (unreachCoach_changes c _) rfl))
    exact lawful_withNoticeNews (lawful_settlePorts (lawful_of_ties lost same))

theorem lawful_takeLoss (h : s.ties.Lawful) (p : Fin 16) : (takeLoss p s).ties.Lawful := by
  unfold takeLoss
  split
  · exact lawful_loseLink h p
  · exact h

theorem lawful_takeReleaseReceipt (h : s.ties.Lawful) (p : Fin 16) : (takeReleaseReceipt p s).ties.Lawful := by
  unfold takeReleaseReceipt
  split
  · exact lawful_withNoticeNews (lawful_settleDetach (lawful_of_ties h (ties_updPort_same p _ s (fun _ => by rfl))))
  · exact h

theorem lawful_takeFrame (h : s.ties.Lawful) (p : Fin 16) (f : CoachFrame) : (takeFrame p f s).ties.Lawful := by
  cases f with
  | greet label maximum revision =>
    exact lawful_withNoticeNews (f := fun s => settlePorts (takeGreet p label maximum s))
      (lawful_settlePorts (lawful_takeGreet h p label maximum))
  | query fields => exact lawful_of_ties h (ties_takeQuery p s _ fields)
  | noticeReceipt entry edition => exact lawful_of_ties h (ties_takeNoticeReceipt p s entry edition)
  | levelReceipt => exact lawful_of_ties h (ties_takeLevelReceipt p s)
  | releaseReceipt => exact lawful_takeReleaseReceipt h p
  | wake => exact lawful_of_ties h (ties_takeWake p s)

theorem lawful_takeReceived (h : s.ties.Lawful) (p : Fin 16) (r : Received) : (takeReceived p s r).ties.Lawful := by
  unfold takeReceived
  split
  · cases r with
    | nothing => exact h
    | dropped => exact lawful_of_ties h (ties_countError p s)
    | passed f length => exact lawful_takeFrame h p f
  · exact h

theorem lawful_foldl {α : Type} {f : State → α → State} (step : ∀ {s}, s.ties.Lawful → ∀ a, (f s a).ties.Lawful)
    (as : List α) (h : s.ties.Lawful) : (as.foldl f s).ties.Lawful := by
  induction as generalizing s with
  | nil => exact h
  | cons a as ih => exact ih (step h a)

theorem lawful_takeBytes (h : s.ties.Lawful) (p : Fin 16) (bytes : List Byte) (breaks : List Nat) :
    (takeBytes p bytes breaks s).ties.Lawful :=
  lawful_foldl (fun h r => lawful_takeReceived h p r) _ h

theorem lawful_onFrame (h : s.ties.Lawful) (p : Fin 16) (f : CoachFrame) : (onFrame p f s).ties.Lawful := by
  unfold onFrame
  split_ifs
  · exact h
  · exact lawful_takeFrame h p f
  · exact lawful_takeBytes h p f.bytes []

end

/-! ## Orders of the formation table (R3 to R6, R12, R13) -/

section
variable {s : State}

theorem otherCoach_eq_false {c : Fin 16} {test : Coach → Bool} (h : otherCoach s c test = false) {d : Fin 16}
    {k : Coach} (apart : d ≠ c) (hk : s.coach d = some k) : test k = false := by
  have := List.any_eq_false.1 h d (mem_all16 d)
  simpa [apart, hk] using this

/-- R3: no entry but the order's own names the port of a SET_COACH that passes its checks. -/
theorem coachChecks_free {o : CoachOrder} (passes : refusal (coachChecks s o) = none) {p d : Fin 16}
    (names : o.port = some p) (apart : d ≠ o.coach) : ¬ s.ties.Names d p := by
  rintro ⟨_, hx, hport⟩
  obtain ⟨k, hk, rfl⟩ := Option.map_eq_some_iff.1 hx
  have none_fails : (coachChecks s o).find? (·.1) = none := by simpa [refusal] using passes
  have clash : otherCoach s o.coach
      (fun k => (o.port.isSome && k.port == o.port) || k.position == o.position) = false := by
    simpa using List.find?_eq_none.1 none_fails (_, .conflict) (by simp [coachChecks])
  have free := otherCoach_eq_false clash apart hk
  have same : k.port = o.port := hport.trans names.symm
  simp [same, names] at free

/-- R4, R5: a SET_COACH that passes its checks leaves only the port that the entry named to be judged. -/
theorem lawful_setCoach {o : CoachOrder} (h : s.ties.Lawful) (passes : refusal (coachChecks s o) = none)
    {new : Coach} (port : new.port = o.port) :
    (s.setCoach o.coach (some new)).ties.LawfulBut ((s.coach o.coach).bind (·.port)) := by
  rw [ties_setCoach, ← ties_namedPort]
  refine h.setCoach (fun k hk p hp d apart => coachChecks_free passes ?_ apart)
  cases hk
  exact port.symm.trans hp

theorem ties_changePortion (c : Fin 16) (old new : Portion) (s : State) :
    (changePortion c old new s).ties = s.ties := by
  have moved : (movePortionNotices c old new (restatus c new s)).ties = s.ties :=
    (ties_of_changes (movePortionNotices_changes c old new _) rfl).trans (ties_restatus c new s)
  unfold changePortion
  dsimp only
  split
  · exact moved
  · exact (ties_updPort_same _ _ _ (fun _ => by rfl)).trans moved

/-- R5: an order that changes neither port nor label leaves the tie of the entry. -/
theorem ties_setCoach_same {o : CoachOrder} {k : Coach} (hk : s.coach o.coach = some k) (same : o.relinks k = false) :
    (s.setCoach o.coach (some (o.rewrite k))).ties = s.ties := by
  obtain ⟨port, label⟩ : o.port = k.port ∧ o.label = k.label := by simpa [CoachOrder.relinks] using same
  refine ties_ext (fun d => ?_) (fun _ => rfl)
  rw [coach_setCoach]
  split
  · subst_vars
    simp [hk, Coach.tie, CoachOrder.rewrite, port, label]
  · rfl

theorem lawful_reevaluatePorts {old new : Option (Fin 16)} (h : s.ties.LawfulBut old) :
    (reevaluatePorts old new s).ties.Lawful := by
  unfold reevaluatePorts
  split
  · rename_i same
    exact lawful_reevaluateOpt (same ▸ h)
  · exact lawful_reevaluateOpt (lawful_reevaluateOpt h).but

theorem lawful_rewriteCoach {o : CoachOrder} {k : Coach} (h : s.ties.Lawful)
    (passes : refusal (coachChecks s o) = none) (hk : s.coach o.coach = some k) :
    (rewriteCoach o k s).ties.Lawful := by
  have written : (s.setCoach o.coach (some (o.rewrite k))).ties.LawfulBut k.port := by
    simpa [hk] using lawful_setCoach h passes (new := o.rewrite k) rfl
  have linked : (if o.relinks k = true then reevaluatePorts k.port o.port (s.setCoach o.coach (some (o.rewrite k)))
      else s.setCoach o.coach (some (o.rewrite k))).ties.Lawful := by
    split
    · exact lawful_reevaluatePorts written
    · rename_i same
      rwa [ties_setCoach_same hk (Bool.eq_false_iff.2 same)]
  unfold rewriteCoach
  dsimp only
  split
  · exact linked
  · rwa [ties_changePortion]

theorem lawful_takeCoachOrder {o : CoachOrder} (h : s.ties.Lawful) (passes : refusal (coachChecks s o) = none) :
    (takeCoachOrder o s).ties.Lawful := by
  unfold takeCoachOrder
  rw [ties_judgeStabling, ties_advanceFormation]
  split
  · rename_i vacant
    have written : (s.setCoach o.coach (some (o.define (s.time.mode != .service)))).ties.Lawful := by
      simpa [vacant] using lawful_setCoach h passes (new := o.define (s.time.mode != .service)) rfl
    exact lawful_reevaluateOpt written.but
  · rename_i k hk
    exact lawful_rewriteCoach h passes hk

theorem lawful_takeRemoveCoach (h : s.ties.Lawful) (c : Fin 16) : (takeRemoveCoach c s).ties.Lawful := by
  unfold takeRemoveCoach
  dsimp only
  rw [ties_judgeStabling, ties_advanceFormation]
  refine lawful_reevaluateOpt ?_
  have notices : (removeCoachNotices c s).ties = s.ties := ties_of_changes (removeCoachNotices_changes c s) rfl
  rw [ties_setCoach, notices, ← ties_namedPort]
  exact h.setCoach (by simp)

theorem lawful_judged {checks : List (Bool × StatusCode)} {e : State × Reply} (h : s.ties.Lawful)
    (effect : refusal checks = none → e.1.ties.Lawful) : (judged checks s e).1.ties.Lawful := by
  unfold judged
  split
  · exact h
  · exact effect ‹_›

theorem lawful_carrySetCoach (h : s.ties.Lawful) (fs : List RawField) : (carrySetCoach fs s).1.ties.Lawful := by
  unfold carrySetCoach
  split
  · exact h
  · split
    · exact h
    · exact lawful_judged h (fun passes => lawful_takeCoachOrder h passes)

theorem lawful_carryRemoveCoach (h : s.ties.Lawful) (fs : List RawField) : (carryRemoveCoach fs s).1.ties.Lawful := by
  unfold carryRemoveCoach
  split
  · exact h
  · split
    · exact h
    · exact lawful_judged h (fun _ => lawful_takeRemoveCoach h _)

theorem lawful_acceptDetach (h : s.ties.Lawful) (p : Portion) : (acceptDetach p s).ties.Lawful := by
  unfold acceptDetach
  dsimp only
  generalize accepted : advanceFormation _ = t
  have ht : t.ties.Lawful := by
    rw [← accepted, ties_advanceFormation]
    refine lawful_of_ties h ((ties_foldl (fun s c => ?_) _ _).trans (ties_of_changes (updPortion_changes p _ s) rfl))
    split
    · rfl
    · exact ties_updPort_same _ _ s (fun _ => by rfl)
  split
  · exact ht
  · exact lawful_completeDetach ht p false

theorem lawful_carryDetach (h : s.ties.Lawful) (fs : List RawField) : (carryDetach fs s).1.ties.Lawful := by
  unfold carryDetach
  split
  · exact h
  · split
    · exact h
    · exact lawful_judged h (fun _ => lawful_acceptDetach h _)

theorem lawful_clearJourney (h : s.ties.Lawful) : (clearJourney s).ties.Lawful := by
  have same : (clearJourney s).ties = (forceDetach s).ties :=
    (ties_advanceFormation _).trans ((ties_advanceRoute _).trans ((ties_of_changes (clearProgress_changes _) rfl).trans
      ((ties_foldl (fun s e => ties_of_changes (freeEntry_changes e true s) rfl) all24 _).trans
        ((ties_of_changes (releaseNames_changes _ _) rfl).trans ((ties_of_changes (setStops_changes _ _) rfl).trans
          ((ties_advanceAllSeats _ _).trans (ties_retireAll _ _)))))))
  rw [same]
  exact lawful_forceDetach h

theorem lawful_carryJourneyClear (h : s.ties.Lawful) (fs : List RawField) : (carryJourneyClear fs s).1.ties.Lawful := by
  unfold carryJourneyClear
  split
  · dsimp only
    split
    · exact lawful_clearJourney h
    · exact lawful_of_ties (lawful_clearJourney h) (ties_of_changes (advanceNotice_changes _) rfl)
  · exact h

end

end Sys2Proof.Machine

/-! PROOFS. Every command keeps the binding law (R148). -/

namespace Sys2Proof.Machine

/-! ## Power-on, start-up and the warm restart (R195 to R197) -/

section
variable {s : State}

theorem lawful_powerUp (strap : StartKind) (s : State) : (powerUp strap s).ties.Lawful := by
  refine Ties.lawful_of_unbound (fun p c d hc => ?_) (fun p => ?_)
  · obtain ⟨k, hk, _⟩ := hc
    have vacant : (powerUp strap s).ties.coach c = none := by
      simp [State.ties, State.coach, powerUp, State.reset, Formation.powerOn]
    simp [vacant] at hk
  · have port : (powerUp strap s).port p = .powerOn (s.port p).carrier := get_tabulate _ p
    simp [State.ties, port, Port.tie, Port.powerOn]

theorem lawful_warmRestart (h : s.ties.Lawful) : (warmRestart s).ties.Lawful := by
  have coaches : (warmRestart s).ties.coach = s.ties.coach := by
    funext c
    simp only [State.ties, State.coach, warmRestart, restartFormation, get_tabulate, Option.map_map]
    rfl
  refine Ties.lawful_of_unbound (fun p c d hc hd => ?_) (fun p => ?_)
  · simp only [Ties.Names, coaches] at hc hd
    exact h.named p c d hc hd
  · have port : (warmRestart s).port p = .powerOn (s.port p).carrier := get_tabulate _ p
    simp [State.ties, port, Port.tie, Port.powerOn]

theorem lawful_releaseReset (h : s.ties.Lawful) : (releaseReset s).ties.Lawful := by
  unfold releaseReset
  split_ifs
  · exact h
  · exact h
  · exact lawful_warmRestart h

theorem lawful_settleWarm (h : s.ties.Lawful) : (settleWarm s).ties.Lawful :=
  lawful_withNoticeNews (lawful_forceDetach (lawful_of_ties h (ties_ite (ties_record _ s) rfl)))

theorem lawful_endStartUp (h : s.ties.Lawful) (failed : List Nat) : (endStartUp failed s).ties.Lawful := by
  unfold endStartUp
  split
  · exact h
  · split
    · exact h
    · dsimp only
      rw [ties_beginWaits, ties_of_changes (sampleLines_changes _) rfl, ties_settlePool]
      generalize started : record .started _ = t
      have ht : t.ties.Lawful := by
        rw [← started, ties_record]
        exact lawful_of_ties h (ties_ite (ties_of_changes (excludeBlocks_changes _ s) rfl) rfl)
      split
      · exact lawful_settleWarm ht
      · exact ht

/-! ## Timers (R190) -/

theorem ties_expireHolds (c : Fin 16) (s : State) : (expireHolds c s).ties = s.ties :=
  ties_ite ((ties_record _ _).trans (ties_retireWhere _ s)) rfl

theorem lawful_takeTick (h : s.ties.Lawful) : (takeTick s).ties.Lawful := by
  have store : (tickStore (countTick s)).ties = s.ties :=
    (ties_of_changes (ageHolds_changes _) rfl).trans (ties_foldl (fun s c => ties_expireHolds c s) all16 (countTick s))
  unfold takeTick
  split
  · refine lawful_of_ties (lawful_expireDetach (s := tickNotices (tickStore (countTick s))) (lawful_of_ties h ?_)) ?_
    · exact (ties_of_changes (tickNotices_changes _) rfl).trans store
    · exact (ties_of_changes (tickStabling_changes _) rfl).trans (ties_of_changes (ageDetach_changes _) rfl)
  · exact h

theorem lawful_whileRunning {effect : State → State} (h : s.ties.Lawful)
    (keeps : (effect s).ties.Lawful) : (whileRunning effect s).ties.Lawful := by
  unfold whileRunning
  split
  · exact keeps
  · exact h

theorem lawful_takeHandOver {effect : State → State} (keeps : ∀ {s}, s.ties.Lawful → (effect s).ties.Lawful)
    (x : HandOver) (h : s.ties.Lawful) : (takeHandOver x effect s).ties.Lawful := by
  unfold takeHandOver
  split
  · exact keeps h
  · exact h

/-! ## Granted orders -/

/-- An order keeps the law if its owner does. -/
theorem lawful_orderStep {isKind : Nat → Bool} {carry : Carry}
    (keeps : ∀ fs {s : State}, s.ties.Lawful → (carry fs s).1.ties.Lawful) (h : s.ties.Lawful) :
    (orderStep isKind carry s).ties.Lawful := by
  unfold orderStep
  split
  · rename_i o _
    split
    · refine lawful_of_ties (s := withNoticeNews (fun s => (carry o.fields s).1) (grantCrew s))
        (lawful_withNoticeNews (keeps o.fields (lawful_of_ties h ?_))) (ties_of_changes (answerCrew_changes _ _) rfl)
      exact ties_of_changes (grantCrew_changes s) rfl
    · exact h
  · exact h

/-- Every owner keeps the law as it carries out an order. -/
theorem lawful_carryOf (i : Instr) (ordered : (orderKind i).isSome) (fs : List RawField) (h : s.ties.Lawful) :
    (carryOf i fs s).1.ties.Lawful := by
  have quiet : sparesTies (orderParts i) = true → (carryOf i fs s).1.ties.Lawful :=
    fun spares => lawful_of_ties h (ties_of_changes (carryOf_changes i ordered fs s) spares)
  cases i <;> simp only [orderKind, Option.isSome_none, Bool.false_eq_true] at ordered
  case setCoach => exact lawful_carrySetCoach h fs
  case removeCoach => exact lawful_carryRemoveCoach h fs
  case attach => exact lawful_of_ties h (ties_carryAttach fs s)
  case detach => exact lawful_carryDetach h fs
  case setLevel => exact lawful_of_ties h (ties_carrySetLevel fs s)
  case putStop => exact lawful_of_ties h (ties_carryPutStop fs s)
  case removeStop => exact lawful_of_ties h (ties_carryRemoveStop fs s)
  case cancelStop => exact lawful_of_ties h (ties_carryCancelStop fs s)
  case reinstateStop => exact lawful_of_ties h (ties_carryReinstateStop fs s)
  case setDelay => exact lawful_of_ties h (ties_carrySetDelay fs s)
  case start => exact lawful_of_ties h (ties_carryStart fs s)
  case approach => exact lawful_of_ties h (ties_carryApproach fs s)
  case arrive => exact lawful_of_ties h (ties_carryArrive fs s)
  case releaseDoors => exact lawful_of_ties h (ties_carryReleaseDoors fs s)
  case depart => exact lawful_of_ties h (ties_carryDepart fs s)
  case book => exact lawful_of_ties h (ties_carryBook fs s)
  case confirm => exact lawful_of_ties h (ties_carryConfirm fs s)
  case cancel => exact lawful_of_ties h (ties_carryCancel fs s)
  case cancelCode => exact lawful_of_ties h (ties_carryCancelCode fs s)
  case move => exact lawful_of_ties h (ties_carryMove fs s)
  case replace => exact lawful_of_ties h (ties_carryReplace fs s)
  case set => exact lawful_of_ties h (ties_carrySet fs s)
  case enterStabled => exact lawful_of_ties h (ties_carryEnterStabled fs s)
  case leaveStabled => exact lawful_of_ties h (ties_carryLeaveStabled fs s)
  case journeyClear => exact lawful_carryJourneyClear h fs
  all_goals exact quiet rfl

/-! ## Every command -/

/-- The step of a command that grants an order. -/
theorem exec_orderStep {i : Instr} {kind : Nat} (hk : orderKind i = some kind) (s : State) :
    exec i s = .next (orderStep (· == kind) (carryOf i) s) := by
  cases i <;> simp only [orderKind, Option.some.injEq, reduceCtorEq] at hk <;> subst hk <;> rfl

theorem lawful_exec (i : Instr) (h : s.ties.Lawful) : ∃ t, exec i s = .next t ∧ t.ties.Lawful := by
  have tied : ∀ {t}, exec i s = .next t → t.ties = s.ties → ∃ t, exec i s = .next t ∧ t.ties.Lawful :=
    fun ht same => ⟨_, ht, lawful_of_ties h same⟩
  cases e : orderKind i with
  | some kind =>
    exact ⟨_, exec_orderStep e s, lawful_orderStep (fun fs _ => lawful_carryOf i (by simp [e]) fs) h⟩
  | none =>
    cases i <;> simp only [orderKind, reduceCtorEq] at e
    case powerOn strap => exact ⟨_, rfl, lawful_powerUp strap s⟩
    case resetNAsserted => exact tied rfl rfl
    case resetNReleased => exact ⟨_, rfl, lawful_releaseReset h⟩
    case startUpEnd failed => exact ⟨_, rfl, lawful_endStartUp h failed⟩
    case orderTransfer bytes => exact tied rfl (ties_of_changes (takeTransfer_changes bytes s) rfl)
    case fetch clocked => exact tied rfl (ties_of_changes (takeFetch_changes clocked s) rfl)
    case refetch clocked => exact tied rfl (ties_of_changes (takeRefetch_changes clocked s) rfl)
    case unknownTransfer first clocked => exact tied rfl (ties_of_changes (takeUnknown_changes first clocked s) rfl)
    case unknownOrder => exact ⟨_, rfl, lawful_orderStep (fun _ _ h => h) h⟩
    case carrierQualified p => exact ⟨_, rfl, lawful_qualify h p⟩
    case incomingCarrierChange p present => exact tied rfl (ties_changeCarrier p s present)
    case linkLost p => exact ⟨_, rfl, lawful_takeLoss h p⟩
    case greet p label maximum revision => exact ⟨_, rfl, lawful_onFrame h p _⟩
    case query p fields => exact ⟨_, rfl, lawful_onFrame h p _⟩
    case noticeReceipt p entry edition => exact ⟨_, rfl, lawful_onFrame h p _⟩
    case levelReceipt p => exact ⟨_, rfl, lawful_onFrame h p _⟩
    case releaseReceipt p => exact ⟨_, rfl, lawful_onFrame h p _⟩
    case wake p => exact ⟨_, rfl, lawful_onFrame h p _⟩
    case frameError p bytes breaks => exact ⟨_, rfl, lawful_takeBytes h p bytes breaks⟩
    case welcome p => exact tied rfl (ties_sendStep ties_sendWelcome _ p s)
    case level p => exact tied rfl (ties_sendStep ties_sendLevel _ p s)
    case release p => exact tied rfl (ties_sendStep ties_sendRelease _ p s)
    case answer p => exact tied rfl (ties_sendStep ties_sendAnswer _ p s)
    case pull p => exact tied rfl (ties_sendStep ties_sendPull _ p s)
    case push p => exact tied rfl (ties_sendStep ties_sendPush _ p s)
    case refresh p => exact tied rfl (ties_sendStep ties_sendRefresh _ p s)
    case tick => exact ⟨_, rfl, lawful_takeTick h⟩
    case provisionalHoldExpiry c => exact tied rfl (ties_ite (ties_expireHolds c s) rfl)
    case lifetimeExpiry entry => exact tied rfl (ties_ite (ties_of_changes (expireLifetime_changes entry s) rfl) rfl)
    case receiptDeadlineExpiry entry =>
      exact tied rfl (ties_ite (ties_of_changes (expireReceipt_changes entry s) rfl) rfl)
    case pushTimeout c => exact tied rfl (ties_ite (ties_of_changes (timeOutPush_changes c s) rfl) rfl)
    case detachDeadlineExpiry => exact ⟨_, rfl, lawful_whileRunning h (lawful_expireDetach h)⟩
    case stablingDeadlineExpiry => exact tied rfl (ties_ite (ties_of_changes (expireStabling_changes s) rfl) rfl)
    case lineInputChange n level => exact tied rfl (ties_of_changes (changeInput_changes n level s) rfl)
    case filteredChange n => exact tied rfl (ties_of_changes (endWait_changes n s) rfl)
    case lineArrive =>
      exact ⟨_, rfl, lawful_takeHandOver (fun h => lawful_of_ties h (ties_offerEvent ties_tryArrive _)) _ h⟩
    case lineDepart =>
      exact ⟨_, rfl, lawful_takeHandOver (fun h => lawful_of_ties h (ties_offerEvent ties_tryDepart _)) _ h⟩
    case lineApproach =>
      exact ⟨_, rfl, lawful_takeHandOver (fun h => lawful_of_ties h (ties_offerEvent ties_tryApproach _)) _ h⟩
    case lineReleaseDoors side =>
      exact ⟨_, rfl, lawful_takeHandOver (fun h => lawful_of_ties h (ties_offerEvent ties_tryRelease _)) _ h⟩
    case couplerEvent p active =>
      exact ⟨_, rfl, lawful_takeHandOver (fun h => lawful_withNoticeNews (lawful_takeCoupler h _ active)) _ h⟩
    case doorEvent =>
      exact ⟨_, rfl, lawful_takeHandOver (fun h => lawful_of_ties h (ties_ite (ties_returnToService _) rfl)) _ h⟩
    case stablingRequest =>
      exact ⟨_, rfl, lawful_takeHandOver (fun h => lawful_of_ties h (ties_enterStabling _)) _ h⟩
    all_goals exact tied rfl (ties_lookupStep _ s)

end

/-- Settles O8, by the ties of the state: each command leaves them or changes them as the law allows. -/
theorem everyStepKeepsTheBindingLaw : Obligations.EveryStepKeepsTheBindingLaw := by
  intro s t h hst
  rw [bindingLaw_iff_lawful] at h ⊢
  unfold step at hst
  split at hst
  · cases hst
    exact h
  · rename_i c rest _
    obtain ⟨u, hu, lawful⟩ := lawful_exec (s := { s with pending := rest }) c h
    rw [hu] at hst
    cases hst
    exact lawful

end Sys2Proof.Machine
